-- ==== Sys2Proof/Word.lean ====
section
/-! DEFINITION. Bytes, words and byte strings (00_scope.md R11, R23). -/

namespace Sys2Proof

/-- A byte, bit 7 most significant (R11). -/
abbrev Byte := BitVec 8

/-- The value of a 32-bit register or of a command word (R23, R80). -/
abbrev Word := BitVec 32

/-- A 16-bit value: a CRC or one word of the primary header. -/
abbrev Half := BitVec 16

/-- A finite sequence of bytes, index 0 first on the wire (R11). -/
abbrev Bytes := List Byte

/-- `rep(b, n)` of R11: `n` copies of byte `b`. -/
abbrev rep (b : Byte) (n : Nat) : Bytes := List.replicate n b

end Sys2Proof
end

