-- ==== Sys2Proof/Config.lean ====
section
/-! DEFINITION. What an implementation fixes: the two OPEN parameters and the record of named constants (00_scope.md R9). -/

namespace Sys2Proof

/-- The OPEN parameter `FRAMER_REARM` (R9, R238): the framer's mode after a successfully decoded unit when a sync marker is
configured. -/
inductive Rearm
  | search
  | accumulate
  deriving DecidableEq, Repr

/-- The OPEN parameters of R9, which the spec makes arguments of the step (R20). They stand in State (log 2), so that a
statement about every state is a statement about every device. -/
structure OpenParams where
  /-- `IN_MAX`: the largest operand, in bytes, a command accepts (R76). -/
  inMax : Nat
  /-- `FRAMER_REARM` (R238). -/
  rearm : Rearm
  deriving DecidableEq, Repr

/-- The four CRC parameters as one record (92_eei_decisions.md D8). -/
structure CrcParams where
  poly : Half
  init : Half
  /-- Bit reflection of the input bytes and of the result. -/
  reflect : Bool
  xorOut : Half
  deriving DecidableEq, Repr

/-- The BCH constants (D15): generator with its `x^7` term, parity complement, fill bit. -/
structure BchParams where
  gen : Byte
  complement : Bool
  fillBit : Bool
  deriving DecidableEq, Repr

/-- The randomizer constants (D18): which stages feed back (bit `j` for stage `sj`) and the initial stages. -/
structure PrnParams where
  taps : Byte
  seed : Byte
  deriving DecidableEq, Repr

/-- Every literal of the spec's parameter table R9 in one record (93_implementation_defined.md I6). The values are
`Machine.consts`. -/
structure Constants where
  hdrLen : Nat
  maxTrailing : Nat
  crcLen : Nat
  crc : CrcParams
  bchData : Nat
  bchBlock : Nat
  bch : BchParams
  cltuFill : Byte
  cltuStart : Bytes
  cltuTail : Bytes
  prn : PrnParams
  syncMaxLen : Nat
  maxbufReset : Word
  skipMax : Word
  deriving DecidableEq, Repr

end Sys2Proof
end

