-- ==== Sys2Proof/Syntax.lean ====
section
/-! DEFINITION. The twelve commands of the opcode map (30_encoding.md R82), each with its operand IN. -/

namespace Sys2Proof

/-- One constructor per row of spec/opcode_table.json. A command word has no register fields and no immediates (R80); the
operand byte string is handed over with the command and is no state (10_state.md R20), so it is the constructor's argument. -/
inductive Instr
  | crcCompute (operand : Bytes)
  | crcVerify (operand : Bytes)
  | phEncode (operand : Bytes)
  | phDecode (operand : Bytes)
  | spEncode (operand : Bytes)
  | spDecode (operand : Bytes)
  | bchEncodeBlock (operand : Bytes)
  | bchDecodeBlock (operand : Bytes)
  | cltuEncode (operand : Bytes)
  | randomize (operand : Bytes)
  | framerPush (operand : Bytes)
  | framerReset (operand : Bytes)
  deriving DecidableEq, Repr

/-- The operand IN the command was issued with (10_state.md R38). -/
def Instr.operand : Instr → Bytes
  | .crcCompute inp => inp
  | .crcVerify inp => inp
  | .phEncode inp => inp
  | .phDecode inp => inp
  | .spEncode inp => inp
  | .spDecode inp => inp
  | .bchEncodeBlock inp => inp
  | .bchDecodeBlock inp => inp
  | .cltuEncode inp => inp
  | .randomize inp => inp
  | .framerPush inp => inp
  | .framerReset inp => inp

end Sys2Proof
end

