-- ==== Sys2Proof/WellFormed.lean ====
section
/-! DEFINITION. Which commands can be issued, and which have the operand form of 30_encoding.md R85. -/

namespace Sys2Proof

/-- The operand fits the device: IN has at most `IN_MAX` bytes (20_memory.md R76). A command that is not well formed is
rejected by the decoder. -/
def Instr.wellFormed (inMax : Nat) (i : Instr) : Bool :=
  decide (i.operand.length ≤ inMax)

/-- The operand forms of R85 whose violation is `IllegalCommand`. A command that breaks its form still decodes: it runs and
raises the error (60_exceptions.md R272), so this is no part of `wellFormed`. `shlen` is the SHLEN register. -/
def Instr.operandForm (shlen : Nat) : Instr → Bool
  | .crcCompute _ => true
  | .crcVerify _ => true
  | .phEncode inp => inp.isEmpty
  | .phDecode _ => true
  | .spEncode inp => decide (shlen ≤ inp.length)
  | .spDecode _ => true
  | .bchEncodeBlock inp => inp.length == 7
  | .bchDecodeBlock inp => inp.length == 8
  | .cltuEncode _ => true
  | .randomize _ => true
  | .framerPush _ => true
  | .framerReset inp => inp.isEmpty

end Sys2Proof
end

