-- ==== Sys2Proof/Decode.lean ====
section
/-! DEFINITION. The command-word decoder (30_encoding.md R80 to R83) and the encoder. -/

namespace Sys2Proof

/-- Why a command is not one of the twelve. All three answers raise `IllegalCommand` (R81). -/
inductive DecodeError
  /-- `w[31:8]` is not 0. -/
  | reservedBits
  /-- `w[7:0]` is no opcode of R82. -/
  | unassignedOpcode
  /-- `len(IN) > IN_MAX` (20_memory.md R76). -/
  | operandTooLong
  deriving DecidableEq, Repr

/-- What a `CMD` action hands over: the command word and the operand IN (R80). -/
structure Command where
  word : Word
  operand : Bytes
  deriving DecidableEq, Repr

/-- The field OPC, bits [7:0] (R80). -/
def opcField (w : Word) : Byte := w.extractLsb' 0 8

/-- The field RSV, bits [31:8] (R80). -/
def rsvField (w : Word) : BitVec 24 := w.extractLsb' 8 24

/-- The opcode map of R82. -/
def decodeOpcode (opc : Byte) (inp : Bytes) : Option Instr :=
  match opc.toNat with
  | 0x01 => some (.crcCompute inp)
  | 0x02 => some (.crcVerify inp)
  | 0x10 => some (.phEncode inp)
  | 0x11 => some (.phDecode inp)
  | 0x20 => some (.spEncode inp)
  | 0x21 => some (.spDecode inp)
  | 0x30 => some (.bchEncodeBlock inp)
  | 0x31 => some (.bchDecodeBlock inp)
  | 0x32 => some (.cltuEncode inp)
  | 0x33 => some (.randomize inp)
  | 0x40 => some (.framerPush inp)
  | 0x41 => some (.framerReset inp)
  | _ => none

/-- Decoding in the order of R81: reserved bits, opcode, operand length. Total on every word and operand. -/
def decode (inMax : Nat) (c : Command) : Except DecodeError Instr :=
  if rsvField c.word ≠ 0 then .error .reservedBits
  else match decodeOpcode (opcField c.word) c.operand with
    | none => .error .unassignedOpcode
    | some i => if c.operand.length > inMax then .error .operandTooLong else .ok i

/-- The column `match` of R82. -/
def Instr.word : Instr → Word
  | .crcCompute _ => 0x00000001
  | .crcVerify _ => 0x00000002
  | .phEncode _ => 0x00000010
  | .phDecode _ => 0x00000011
  | .spEncode _ => 0x00000020
  | .spDecode _ => 0x00000021
  | .bchEncodeBlock _ => 0x00000030
  | .bchDecodeBlock _ => 0x00000031
  | .cltuEncode _ => 0x00000032
  | .randomize _ => 0x00000033
  | .framerPush _ => 0x00000040
  | .framerReset _ => 0x00000041

/-- The encoding of a command: its word followed by its operand bytes (R86). -/
def encode (i : Instr) : Command := ⟨i.word, i.operand⟩

/-- The decoder on an opcode-table word, with the empty operand (log 12). A word of more than 32 bits is no command word. -/
def decodeTableWord (nbits w : Nat) : Option Instr :=
  let v := w % 2 ^ nbits
  if v < 2 ^ 32 then
    match decode 0 ⟨BitVec.ofNat 32 v, []⟩ with
    | .ok i => some i
    | .error _ => none
  else none

end Sys2Proof
end

