-- ==== Sys2Proof/Machine/Constants.lean ====
section
/-! DEFINITION. The values of the named constants (00_scope.md R9) and of the OPEN parameters at reset. -/

namespace Sys2Proof.Machine

/-- The parameter table of R9. The CRC, BCH, tail and PRN values are the spec's own, taken by it from general knowledge
(93_implementation_defined.md K1 to K9). UNVERIFIED against a device; unsafe where a device differs (log 10). -/
abbrev consts : Constants where
  hdrLen := 6
  maxTrailing := 65536
  crcLen := 2
  crc := { poly := 0x1021, init := 0xFFFF, reflect := false, xorOut := 0x0000 }
  bchData := 7
  bchBlock := 8
  bch := { gen := 0xC5, complement := true, fillBit := false }
  cltuFill := 0x55
  cltuStart := [0xEB, 0x90]
  cltuTail := [0xC5, 0xC5, 0xC5, 0xC5, 0xC5, 0xC5, 0xC5, 0x79]
  prn := { taps := 0x5F, seed := 0xFF }
  syncMaxLen := 8
  maxbufReset := 65542
  skipMax := 0xFFFFFFFF

/-- The OPEN parameters of the machine `State.reset` describes: the spec's default `search`, and the least `IN_MAX` that
admits every legal packet. DESIGN CHOICE; safe, since no statement rests on it (log 2). -/
def resetParams : OpenParams := { inMax := 65542, rearm := .search }

end Sys2Proof.Machine
end

