-- ==== Sys2Proof/Machine/State.lean ====
section
/-! DEFINITION. The state of the core (10_state.md R20), the host's pending actions, and reset (R43). -/

namespace Sys2Proof.Machine

/-- STATUS.CODE: success and the error kinds of 60_exceptions.md R271. The reserved codes 10 to 15 are never produced and
have no constructor (93_implementation_defined.md I12). DEDUCED; safe (log 6). -/
inductive Code
  | success
  | truncatedHeader
  | truncatedPacket
  | payloadTooLarge
  | checksumMismatch
  /-- Keeps its code; no command of this block raises it (R271, I13). -/
  | invalidFrameLength
  | uncorrectableBlock
  /-- Reported in `UnitError` events only (R271, R279). -/
  | frameTooLarge
  | emptyDataField
  | illegalCommand
  deriving DecidableEq, Repr

/-- The STATUS register (R31). -/
structure Status where
  code : Code
  corr : Bool
  deriving DecidableEq, Repr

/-- FMODE.MODE (R34). -/
inductive FramerMode
  | searching
  | accumulating
  deriving DecidableEq, Repr

/-- The fields of one primary header, each at its wire width (R29). -/
structure Header where
  ver : BitVec 3
  ptype : BitVec 1
  shf : BitVec 1
  apid : BitVec 11
  seqf : BitVec 2
  seqc : BitVec 14
  pdl : BitVec 16
  deriving DecidableEq, Repr

/-- The decoded-packet record (R42); `data` holds the secondary header and the payload undivided. -/
structure Packet where
  hdr : Header
  data : Bytes
  crc : Option Half
  deriving DecidableEq, Repr

/-- An event of EVQ (30_encoding.md R93). -/
inductive Event
  | skipped (n : Word)
  | packet (p : Packet)
  | unitError (c : Code)
  deriving DecidableEq, Repr

/-- The assigned registers (R23), by name. -/
inductive Reg
  | cfg
  | sync0
  | sync1
  | maxbuf
  | fVer
  | fType
  | fShf
  | fApid
  | fSeqf
  | fSeqc
  | fPdl
  | shlen
  | crcv
  | status
  | consumed
  | fmode
  | fbuflen
  | fskip
  deriving DecidableEq, Repr

/-- What the host can do to the core (20_memory.md R70). -/
inductive HostAction
  /-- `WR R, v` (10_state.md R39). -/
  | wr (r : BitVec 8) (v : Word)
  /-- `RD R` (R40). -/
  | rd (r : BitVec 8)
  /-- `CMD w, IN` (30_encoding.md R80). -/
  | cmd (c : Command)
  /-- Reset (70_reset_and_hazards.md R300). -/
  | reset
  deriving DecidableEq, Repr

/-- The state of the machine. The fields down to `evq` are the spec's architectural state (R20), each register at the width
of its fields, so that its reserved bits read as zero (log 5); FBUFLEN is computed (R36, log 7). The last three fields are
the model's own: the step's OPEN parameters (log 2), the host's actions still to be performed (log 1) and what the last RD
returned (log 3). -/
structure State where
  /-- CFG (R24): CRC_EN [0], RAND_EN [1], SYNC_EN [2], SYNC_LEN [6:3]. -/
  cfg : BitVec 7
  /-- SYNC0 (R25). -/
  sync0 : Word
  /-- SYNC1 (R26). -/
  sync1 : Word
  /-- MAXBUF (R28). -/
  maxbuf : Word
  /-- F_VER, F_TYPE, F_SHF, F_APID, F_SEQF, F_SEQC, F_PDL (R29). -/
  hdr : Header
  /-- SHLEN (R30). -/
  shlen : BitVec 17
  /-- CRCV (R32). -/
  crcv : Half
  /-- STATUS (R31). -/
  status : Status
  /-- CONSUMED (R33). -/
  consumed : Word
  /-- FMODE (R34). -/
  fmode : FramerMode
  /-- FSKIP (R37). -/
  fskip : Word
  /-- FBUF (R35), hidden. -/
  fbuf : Bytes
  /-- FWIN (R35), hidden. -/
  fwin : Bytes
  /-- OUT (R38). -/
  out : Bytes
  /-- EVQ (R38). -/
  evq : List Event
  /-- IN_MAX and FRAMER_REARM (R9). -/
  params : OpenParams
  /-- The host's actions still to be performed, next first (R69, R70). -/
  pending : List HostAction
  /-- The value the last RD returned to the host; none before the first. -/
  rdValue : Option Word
  deriving DecidableEq, Repr

/-- Why the machine stops: never. "The core never traps, never transfers control, and never stops" (60_exceptions.md R270),
so no meaning raises a fault and the type has no constructor. Safe (log 8). -/
inductive Fault
  deriving DecidableEq, Repr

/-- Why an instruction has no meaning. -/
inductive Refusal
  /-- Raised by an arm of `exec` for a command not modelled yet; no arm raises it now. Safe: a claim about such a command
  could not be proved. -/
  | notModelled (mnemonic : String)
  deriving DecidableEq, Repr

/-- What a step answers. -/
abbrev Result := Host.Outcome State Fault Refusal

/-- The machine right after reset (R43, R300), with no host action pending (log 1). -/
def State.reset : State where
  cfg := 0
  sync0 := 0
  sync1 := 0
  maxbuf := consts.maxbufReset
  hdr := { ver := 0, ptype := 0, shf := 0, apid := 0, seqf := 0, seqc := 0, pdl := 0 }
  shlen := 0
  crcv := 0
  status := { code := .success, corr := false }
  consumed := 0
  fmode := .accumulating
  fskip := 0
  fbuf := []
  fwin := []
  out := []
  evq := []
  params := resetParams
  pending := []
  rdValue := none

end Sys2Proof.Machine
end

