-- ==== Sys2Proof/Machine/Operands.lean ====
section
/-! DEFINITION. Operand reads, big-endian words, and the fields of the configuration registers. -/

namespace Sys2Proof.Machine

/-- `MemRead(a, n)`, the sub-string `IN[a:a+n]` (00_scope.md R14). Every use reads inside the operand (20_memory.md R61). -/
def memRead (inp : Bytes) (a n : Nat) : Bytes := (inp.drop a).take n

/-- Byte `i` of a byte string (R11). It is used only for `i < len(s)` (R61); outside, which no command reaches, it is 0
(log 13). -/
def byteAt (s : Bytes) (i : Nat) : Byte := s.getD i 0

/-- `be16(s, i)` (R12). -/
def be16 (s : Bytes) (i : Nat) : Half := byteAt s i ++ byteAt s (i + 1)

/-- `bytes16(v)` (R12). -/
def bytes16 (v : Half) : Bytes := [v.extractLsb' 8 8, v.extractLsb' 0 8]

/-- The integer a byte string spells, most significant byte first (R12, R190). -/
def beNat (s : Bytes) : Nat := s.foldl (fun acc b => acc * 256 + b.toNat) 0

/-- The `n`-byte big-endian spelling of an integer. -/
def natBytes : Nat → Nat → Bytes
  | 0, _ => []
  | n + 1, v => BitVec.ofNat 8 (v / 256 ^ n) :: natBytes n v

/-- CFG.SYNC_LEN in a register value (10_state.md R24). -/
def syncLenField (cfg : BitVec 7) : BitVec 4 := cfg.extractLsb' 3 4

/-- CFG.CRC_EN (R24). -/
def State.crcEn (s : State) : Bool := s.cfg.getLsbD 0

/-- CFG.RAND_EN (R24). -/
def State.randEn (s : State) : Bool := s.cfg.getLsbD 1

/-- CFG.SYNC_EN (R24). -/
def State.syncEn (s : State) : Bool := s.cfg.getLsbD 2

/-- CFG.SYNC_LEN (R24). -/
def State.syncLen (s : State) : Nat := (syncLenField s.cfg).toNat

/-- The four bytes of a register, bits [31:24] first (R25, R26). -/
def wordBytes (w : Word) : Bytes :=
  [w.extractLsb' 24 8, w.extractLsb' 16 8, w.extractLsb' 8 8, w.extractLsb' 0 8]

/-- The register value whose bytes are given, the first in bits [31:24] (R25, R26). -/
def packWord (b0 b1 b2 b3 : Byte) : Word := b0 ++ b1 ++ b2 ++ b3

/-- `SYNC`, the configured sync marker (R27): none, or the first SYNC_LEN of the eight marker bytes. -/
def State.syncMarker (s : State) : Option Bytes :=
  if s.syncEn then some ((wordBytes s.sync0 ++ wordBytes s.sync1).take s.syncLen) else none

end Sys2Proof.Machine
end

