-- ==== Sys2Proof/Machine/Flags.lean ====
section
/-! DEFINITION. STATUS, the core's only flag register (10_state.md R31), and the other computed register values. -/

namespace Sys2Proof.Machine

/-- The number of an error code (60_exceptions.md R271). -/
def Code.num : Code → BitVec 4
  | .success => 0
  | .truncatedHeader => 1
  | .truncatedPacket => 2
  | .payloadTooLarge => 3
  | .checksumMismatch => 4
  | .invalidFrameLength => 5
  | .uncorrectableBlock => 6
  | .frameTooLarge => 7
  | .emptyDataField => 8
  | .illegalCommand => 9

/-- STATUS after a command that completed, with its CORR bit (R31, R197). -/
def Status.done (corr : Bool) : Status := { code := .success, corr := corr }

/-- STATUS after an error: the code, CORR 0 (60_exceptions.md R273). -/
def Status.failed (e : Code) : Status := { code := e, corr := false }

/-- STATUS as the host reads it: CODE [3:0], CORR [4], the rest 0 (R31). -/
def Status.word (st : Status) : Word :=
  st.code.num.setWidth 32 ||| ((BitVec.ofBool st.corr).setWidth 32 <<< 4)

/-- FMODE as the host reads it: bit 0, 0 = Searching, 1 = Accumulating (R34). -/
def FramerMode.word : FramerMode → Word
  | .searching => 0
  | .accumulating => 1

/-- FBUFLEN (R36): the length of FBUF in Accumulating and of FWIN in Searching. -/
def State.fbuflen (s : State) : Word :=
  match s.fmode with
  | .accumulating => BitVec.ofNat 32 s.fbuf.length
  | .searching => BitVec.ofNat 32 s.fwin.length

/-- FSKIP after one more discarded byte: 32 bits, saturating (R37). -/
def satIncr (n : Word) : Word := if n = consts.skipMax then n else n + 1

end Sys2Proof.Machine
end

