-- ==== Sys2Proof/Machine/Ops.lean ====
section
/-! DEFINITION. The operations every command shares: completing, raising an error, resetting the framer, and register access
(10_state.md R39 to R41; 60_exceptions.md R273). -/

namespace Sys2Proof.Machine

/-- A command completes with byte result `out` (00_scope.md R14 `finish()`, 10_state.md R31, R38): STATUS.CODE 0, CORR as
given, EVQ `[]`. -/
def finishWith (out : Bytes) (corr : Bool) (s : State) : State :=
  { s with status := .done corr, out := out, evq := [] }

/-- A command completes with byte result `out` and CORR 0. -/
def finish (out : Bytes) (s : State) : State := finishWith out false s

/-- A command fails (60_exceptions.md R273): STATUS gets the error with CORR 0, OUT and EVQ become empty, and nothing else
changes. This is all there is of taking an exception: no state is saved, no mode changes and control goes nowhere (R277),
and there is no return from it (R278). -/
def raise (e : Code) (s : State) : State :=
  { s with status := .failed e, out := [], evq := [] }

/-- A decode command fails: CONSUMED becomes 0 beside what `raise` writes (10_state.md R33, R273). -/
def raiseDecode (e : Code) (s : State) : State := raise e { s with consumed := 0 }

/-- `home` (44_stream_framer.md R232): the mode entered on resynchronisation. -/
def State.home (s : State) : FramerMode := if s.syncEn then .searching else .accumulating

/-- The mode after a successfully decoded unit (R237, R238). -/
def State.afterUnit (s : State) : FramerMode :=
  if s.syncEn && s.params.rearm == .search then .searching else .accumulating

/-- Discard everything the framer holds and enter `home` (R240, 10_state.md R41). -/
def framerClear (s : State) : State :=
  { s with fbuf := [], fwin := [], fskip := 0, fmode := s.home }

/-- The register with a given number (R23); none for a reserved number. -/
def regOfNum (n : BitVec 8) : Option Reg :=
  match n.toNat with
  | 0x00 => some .cfg
  | 0x01 => some .sync0
  | 0x02 => some .sync1
  | 0x03 => some .maxbuf
  | 0x08 => some .fVer
  | 0x09 => some .fType
  | 0x0A => some .fShf
  | 0x0B => some .fApid
  | 0x0C => some .fSeqf
  | 0x0D => some .fSeqc
  | 0x0E => some .fPdl
  | 0x0F => some .shlen
  | 0x10 => some .crcv
  | 0x11 => some .status
  | 0x12 => some .consumed
  | 0x13 => some .fmode
  | 0x14 => some .fbuflen
  | 0x15 => some .fskip
  | _ => none

/-- The number of a register (R23). -/
def Reg.num : Reg → BitVec 8
  | .cfg => 0x00
  | .sync0 => 0x01
  | .sync1 => 0x02
  | .maxbuf => 0x03
  | .fVer => 0x08
  | .fType => 0x09
  | .fShf => 0x0A
  | .fApid => 0x0B
  | .fSeqf => 0x0C
  | .fSeqc => 0x0D
  | .fPdl => 0x0E
  | .shlen => 0x0F
  | .crcv => 0x10
  | .status => 0x11
  | .consumed => 0x12
  | .fmode => 0x13
  | .fbuflen => 0x14
  | .fskip => 0x15

/-- `x[R]`: a register as the host reads it, its reserved bits 0 (R23, R40). -/
def regValue (s : State) : Reg → Word
  | .cfg => s.cfg.setWidth 32
  | .sync0 => s.sync0
  | .sync1 => s.sync1
  | .maxbuf => s.maxbuf
  | .fVer => s.hdr.ver.setWidth 32
  | .fType => s.hdr.ptype.setWidth 32
  | .fShf => s.hdr.shf.setWidth 32
  | .fApid => s.hdr.apid.setWidth 32
  | .fSeqf => s.hdr.seqf.setWidth 32
  | .fSeqc => s.hdr.seqc.setWidth 32
  | .fPdl => s.hdr.pdl.setWidth 32
  | .shlen => s.shlen.setWidth 32
  | .crcv => s.crcv.setWidth 32
  | .status => s.status.word
  | .consumed => s.consumed
  | .fmode => s.fmode.word
  | .fbuflen => s.fbuflen
  | .fskip => s.fskip

/-- What `RD R` returns (R40): the register's value, 0 for a reserved number. -/
def readReg (s : State) (n : BitVec 8) : Word :=
  match regOfNum n with
  | some r => regValue s r
  | none => 0

/-- Whether a value fits a `k`-bit field. -/
def fits (v : Word) (k : Nat) : Bool := decide (v.toNat < 2 ^ k)

/-- Whether `WR R, v` is accepted (R39): R is RW and `v` is one of its legal values. -/
def writeLegal (r : Reg) (v : Word) : Bool :=
  match r with
  | .cfg => decide (v.extractLsb' 7 25 = 0) && decide ((v.extractLsb' 3 4).toNat ≤ consts.syncMaxLen)
      && !(v.getLsbD 2 && decide (v.extractLsb' 3 4 = 0))
  | .sync0 => true
  | .sync1 => true
  | .maxbuf => true
  | .fVer => fits v 3
  | .fType => fits v 1
  | .fShf => fits v 1
  | .fApid => fits v 11
  | .fSeqf => fits v 2
  | .fSeqc => fits v 14
  | .fPdl => fits v 16
  | .shlen => decide (v.toNat ≤ consts.maxTrailing)
  | .crcv => false
  | .status => false
  | .consumed => false
  | .fmode => false
  | .fbuflen => false
  | .fskip => false

/-- `x[R] <- v` for a legal `v` (R39); the RO registers, whose writes are never legal, stay as they are. -/
def storeReg (r : Reg) (v : Word) (s : State) : State :=
  match r with
  | .cfg => { s with cfg := v.setWidth 7 }
  | .sync0 => { s with sync0 := v }
  | .sync1 => { s with sync1 := v }
  | .maxbuf => { s with maxbuf := v }
  | .fVer => { s with hdr := { s.hdr with ver := v.setWidth 3 } }
  | .fType => { s with hdr := { s.hdr with ptype := v.setWidth 1 } }
  | .fShf => { s with hdr := { s.hdr with shf := v.setWidth 1 } }
  | .fApid => { s with hdr := { s.hdr with apid := v.setWidth 11 } }
  | .fSeqf => { s with hdr := { s.hdr with seqf := v.setWidth 2 } }
  | .fSeqc => { s with hdr := { s.hdr with seqc := v.setWidth 14 } }
  | .fPdl => { s with hdr := { s.hdr with pdl := v.setWidth 16 } }
  | .shlen => { s with shlen := v.setWidth 17 }
  | .crcv => s
  | .status => s
  | .consumed => s
  | .fmode => s
  | .fbuflen => s
  | .fskip => s

/-- The configuration registers, an accepted write to which resets the framer (R41). -/
def Reg.isConfig : Reg → Bool
  | .cfg => true
  | .sync0 => true
  | .sync1 => true
  | .maxbuf => true
  | .fVer => false
  | .fType => false
  | .fShf => false
  | .fApid => false
  | .fSeqf => false
  | .fSeqc => false
  | .fPdl => false
  | .shlen => false
  | .crcv => false
  | .status => false
  | .consumed => false
  | .fmode => false
  | .fbuflen => false
  | .fskip => false

/-- A rejected `WR`: STATUS becomes CODE 9, CORR 0, and nothing else changes (R39). -/
def rejectWrite (s : State) : State := { s with status := .failed .illegalCommand }

/-- An accepted `WR`: the register is written, then a configuration register resets the framer (R39, R41). -/
def acceptWrite (r : Reg) (v : Word) (s : State) : State :=
  if r.isConfig then framerClear (storeReg r v s) else storeReg r v s

/-- `WR R, v` (R39, R41). -/
def writeReg (n : BitVec 8) (v : Word) (s : State) : State :=
  match regOfNum n with
  | some r => if writeLegal r v then acceptWrite r v s else rejectWrite s
  | none => rejectWrite s

/-- The reset action (70_reset_and_hazards.md R300): every piece of the core's state gets its value of R43. What is not the
core's state stays: the OPEN parameters, the host's later actions and what it has read (log 15). -/
def hostReset (s : State) : State :=
  { State.reset with params := s.params, pending := s.pending, rdValue := s.rdValue }

end Sys2Proof.Machine
end

