-- ==== Sys2Proof/Machine/Bch.lean ====
section
/-! DEFINITION. The BCH (63,56) codeblock encoder and decoder (43_bch_cltu.md R190 to R198). -/

namespace Sys2Proof.Machine

/-- The loop of `bchRem` from `i = j + 6` down to `i = 7` (R191): reduce by the generator wherever the coefficient is 1. -/
def bchReduce : Nat → BitVec 63 → BitVec 63
  | 0, v => v
  | j + 1, v =>
    bchReduce j (if v.getLsbD (j + 7) then v ^^^ (consts.bch.gen.setWidth 63 <<< j) else v)

/-- `bchRem(v, 63)` (R191): the remainder of a polynomial of degree at most 62 by the generator. -/
def bchRem (v : BitVec 63) : BitVec 7 := (bchReduce 56 v).extractLsb' 0 7

/-- The message of seven bytes as an integer, first byte most significant (R190). -/
def be56 (d : Bytes) : BitVec 56 := BitVec.ofNat 56 (beNat d)

/-- The complement of the parity bits, or none if the constants say so (R191). -/
def parityMask : BitVec 7 := if consts.bch.complement then BitVec.allOnes 7 else 0

/-- The transmitted parity of a message: the remainder of `m(x) * x^7`, complemented (R191). -/
def bchParity (m : BitVec 56) : BitVec 7 := bchRem (m.setWidth 63 <<< 7) ^^^ parityMask

/-- The eighth byte: parity in bits 7 to 1, fill bit in bit 0 (R192). -/
def parityByte (p : BitVec 7) : Byte := p ++ BitVec.ofBool consts.bch.fillBit

/-- `bchEnc(d)` for seven bytes (R192). -/
def bchEnc (d : Bytes) : Bytes := d ++ [parityByte (bchParity (be56 d))]

/-- The received code polynomial `R` of an 8-byte block (R193): the complement is undone, the fill bit ignored. -/
def receivedPoly (c : Bytes) : BitVec 63 :=
  ((be56 (memRead c 0 7)).setWidth 63 <<< 7) ||| (((byteAt c 7).extractLsb' 1 7) ^^^ parityMask).setWidth 63

/-- The syndrome of a received block (R193). -/
def syndrome (c : Bytes) : BitVec 7 := bchRem (receivedPoly c)

/-- The single-error syndrome table as R194 prints it, by wire bit from 0. -/
def syndromeTable : List (BitVec 7) :=
  [0x62, 0x31, 0x7A, 0x3D, 0x7C, 0x3E, 0x1F, 0x6D] ++
  [0x54, 0x2A, 0x15, 0x68, 0x34, 0x1A, 0x0D, 0x64] ++
  [0x32, 0x19, 0x6E, 0x37, 0x79, 0x5E, 0x2F, 0x75] ++
  [0x58, 0x2C, 0x16, 0x0B, 0x67, 0x51, 0x4A, 0x25] ++
  [0x70, 0x38, 0x1C, 0x0E, 0x07, 0x61, 0x52, 0x29] ++
  [0x76, 0x3B, 0x7F, 0x5D, 0x4C, 0x26, 0x13, 0x6B] ++
  [0x57, 0x49, 0x46, 0x23, 0x73, 0x5B, 0x4F, 0x45] ++
  [0x40, 0x20, 0x10, 0x08, 0x04, 0x02, 0x01]

/-- The position of a value in a list, counting from `k`. -/
def positionFrom (x : BitVec 7) : Nat → List (BitVec 7) → Option Nat
  | _, [] => none
  | k, y :: ys => if y = x then some k else positionFrom x (k + 1) ys

/-- The code degree `i = 62 - wire bit` whose single error has this syndrome; none if the table has no such row (R194). -/
def errorDegree (syn : BitVec 7) : Option Nat := (positionFrom syn 0 syndromeTable).map (62 - ·)

/-- `bchDec(c)` for eight bytes (R195): the data and whether a bit was corrected, or none for UncorrectableBlock. -/
def bchDec (c : Bytes) : Option (Bytes × Bool) :=
  if syndrome c = 0 then some (memRead c 0 7, false)
  else match errorDegree (syndrome c) with
    | some i =>
      let r := receivedPoly c ^^^ (1#63 <<< i)
      some (natBytes 7 (r >>> 7).toNat, true)
    | none => none

/-- BCH_ENCODE_BLOCK (R196). -/
def execBchEncodeBlock (inp : Bytes) (s : State) : Result :=
  if inp.length ≠ consts.bchData then .next (raise .illegalCommand s)
  else .next (finish (bchEnc (memRead inp 0 7)) s)

/-- BCH_DECODE_BLOCK (R197). -/
def execBchDecodeBlock (inp : Bytes) (s : State) : Result :=
  if inp.length ≠ consts.bchBlock then .next (raise .illegalCommand s)
  else match bchDec (memRead inp 0 8) with
    | none => .next (raise .uncorrectableBlock s)
    | some (d, k) => .next (finishWith d k s)

end Sys2Proof.Machine
end

