-- ==== Sys2Proof/Machine/Cltu.lean ====
section
/-! DEFINITION. The randomizer and the CLTU builder (43_bch_cltu.md R200 to R207). -/

namespace Sys2Proof.Machine

/-- The exclusive or of the eight bits. -/
def parity8 (v : Byte) : Bool :=
  v.getLsbD 0 ^^ v.getLsbD 1 ^^ v.getLsbD 2 ^^ v.getLsbD 3 ^^ v.getLsbD 4 ^^ v.getLsbD 5 ^^ v.getLsbD 6 ^^ v.getLsbD 7

/-- One step of the shift register (R204), stage `sj` in bit `j`: the stages move down and the feedback enters `s7`. -/
def lfsrStep (st : Byte) : Byte :=
  (st >>> 1) ||| ((BitVec.ofBool (parity8 (st &&& consts.prn.taps))).setWidth 8 <<< 7)

/-- The next `n` output bits as an integer, earliest most significant, and the stages after them (R204, R205). -/
def lfsrBits : Nat → Byte → Byte → Byte × Byte
  | 0, acc, st => (acc, st)
  | n + 1, acc, st => lfsrBits n ((acc <<< 1) ||| (BitVec.ofBool (st.getLsbD 0)).setWidth 8) (lfsrStep st)

/-- `n` bytes of the sequence from given stages (R205). -/
def prnFrom : Nat → Byte → Bytes
  | 0, _ => []
  | n + 1, st =>
    let r := lfsrBits 8 0 st
    r.1 :: prnFrom n r.2

/-- `PRN(n)` (R205): every sequence starts from the seed (R204). -/
def prn (n : Nat) : Bytes := prnFrom n consts.prn.seed

/-- `rand(s) = s ^ PRN(len(s))` byte by byte (R205). -/
def rand (s : Bytes) : Bytes := List.zipWith (· ^^^ ·) s (prn s.length)

/-- `pad(s)` (R200): 0x55 bytes up to a multiple of 7. -/
def pad (s : Bytes) : Bytes :=
  s ++ rep consts.cltuFill ((consts.bchData - s.length % consts.bchData) % consts.bchData)

/-- The codeblocks of the first `n` 7-byte chunks, in order (R201). -/
def codeblocks : Nat → Bytes → Bytes
  | 0, _ => []
  | n + 1, u => bchEnc (u.take 7) ++ codeblocks n (u.drop 7)

/-- `cltu(s, randEn)` (R201): randomize the frame, then fill, then encode. -/
def cltu (s : Bytes) (randEn : Bool) : Bytes :=
  let t := if randEn then rand s else s
  let u := pad t
  consts.cltuStart ++ codeblocks (u.length / consts.bchData) u ++ consts.cltuTail

/-- CLTU_ENCODE (R202). -/
def execCltuEncode (inp : Bytes) (s : State) : Result := .next (finish (cltu inp s.randEn) s)

/-- RANDOMIZE and its second name DERANDOMIZE (R206). -/
def execRandomize (inp : Bytes) (s : State) : Result := .next (finish (rand inp) s)

end Sys2Proof.Machine
end

