-- ==== Sys2Proof/Machine/Crc.lean ====
section
/-! DEFINITION. The CRC engine (40_crc.md). -/

namespace Sys2Proof.Machine

/-- One of the eight shifts of R120. -/
def crcShift (p : CrcParams) (c : Half) : Half :=
  if c.msb then (c <<< 1) ^^^ p.poly else c <<< 1

/-- One byte, most significant bit first (R120). -/
def crcByte (p : CrcParams) (c : Half) (b : Byte) : Half :=
  let b' := if p.reflect then b.reverse else b
  Nat.repeat (crcShift p) 8 (c ^^^ (b'.setWidth 16 <<< 8))

/-- The CRC of a byte string under given parameters (R120, D8). -/
def crcWith (p : CrcParams) (s : Bytes) : Half :=
  let c := s.foldl (crcByte p) p.init
  (if p.reflect then c.reverse else c) ^^^ p.xorOut

/-- `crc16(s)` (R120). -/
def crc16 (s : Bytes) : Half := crcWith consts.crc s

/-- CRC_COMPUTE (R122). -/
def execCrcCompute (inp : Bytes) (s : State) : Result :=
  let c := crc16 inp
  .next (finish (bytes16 c) { s with crcv := c })

/-- CRC_VERIFY (R123): CRCV is written on match and on mismatch, but not for an operand under two bytes. -/
def execCrcVerify (inp : Bytes) (s : State) : Result :=
  if inp.length < 2 then .next (raise .checksumMismatch s)
  else
    let n := inp.length
    let c := crc16 (memRead inp 0 (n - 2))
    let s' := { s with crcv := c }
    if c ≠ be16 inp (n - 2) then .next (raise .checksumMismatch s')
    else .next (finish [] s')

end Sys2Proof.Machine
end

