-- ==== Sys2Proof/Machine/PrimaryHeader.lean ====
section
/-! DEFINITION. The primary header codec (41_primary_header.md; layout 30_encoding.md R88). -/

namespace Sys2Proof.Machine

/-- The values of the packet type field (00_scope.md R18): a closed enumeration. -/
inductive PacketType
  | telemetry
  | command
  deriving DecidableEq, Repr

/-- The values of the sequence (grouping) flags (R18): a closed enumeration. -/
inductive SeqFlag
  | continuation
  | firstSegment
  | lastSegment
  | unsegmented
  deriving DecidableEq, Repr

/-- Packet type: 0 = Telemetry, 1 = Command (R18). -/
def PacketType.ofField (b : BitVec 1) : PacketType := if b = 0 then .telemetry else .command

/-- The field value of a packet type (R18). -/
def PacketType.field : PacketType → BitVec 1
  | .telemetry => 0
  | .command => 1

/-- Sequence flags: 00 Continuation, 01 First, 10 Last, 11 Unsegmented (R18). -/
def SeqFlag.ofField (b : BitVec 2) : SeqFlag :=
  if b = 0 then .continuation else if b = 1 then .firstSegment
  else if b = 2 then .lastSegment else .unsegmented

/-- The field value of a grouping state (R18). -/
def SeqFlag.field : SeqFlag → BitVec 2
  | .continuation => 0
  | .firstSegment => 1
  | .lastSegment => 2
  | .unsegmented => 3

/-- The first header word (R88, R140). -/
def headerWord0 (h : Header) : Half :=
  (h.ver.setWidth 16 <<< 13) ||| (h.ptype.setWidth 16 <<< 12) ||| (h.shf.setWidth 16 <<< 11) ||| h.apid.setWidth 16

/-- The second header word (R88, R140). -/
def headerWord1 (h : Header) : Half := (h.seqf.setWidth 16 <<< 14) ||| h.seqc.setWidth 16

/-- The third header word (R88, R140). -/
def headerWord2 (h : Header) : Half := h.pdl

/-- `phPack` (R140). -/
def phPack (h : Header) : Bytes :=
  bytes16 (headerWord0 h) ++ bytes16 (headerWord1 h) ++ bytes16 (headerWord2 h)

/-- `phUnpack(h)` for at least 6 bytes; reads only the first six (R141). -/
def phUnpack (h : Bytes) : Header :=
  let w0 := be16 h 0
  let w1 := be16 h 2
  let w2 := be16 h 4
  { ver := w0.extractLsb' 13 3, ptype := w0.extractLsb' 12 1, shf := w0.extractLsb' 11 1
    apid := w0.extractLsb' 0 11, seqf := w1.extractLsb' 14 2, seqc := w1.extractLsb' 0 14, pdl := w2 }

/-- PH_ENCODE (R142). -/
def execPhEncode (inp : Bytes) (s : State) : Result :=
  if inp.length ≠ 0 then .next (raise .illegalCommand s)
  else .next (finish (phPack s.hdr) s)

/-- PH_DECODE (R143). -/
def execPhDecode (inp : Bytes) (s : State) : Result :=
  if inp.length < consts.hdrLen then .next (raiseDecode .truncatedHeader s)
  else
    .next (finish [] { s with hdr := phUnpack (memRead inp 0 consts.hdrLen)
                              consumed := BitVec.ofNat 32 consts.hdrLen })

end Sys2Proof.Machine
end

