-- ==== Sys2Proof/Machine/SpacePacket.lean ====
section
/-! DEFINITION. The space packet codec (42_space_packet.md). -/

namespace Sys2Proof.Machine

/-- The bytes the CRC trailer takes: 2 when CRC_EN = 1, else 0 (R160). -/
def trailerLen (crcEn : Bool) : Nat := if crcEn then consts.crcLen else 0

/-- The packet bytes before the CRC trailer: header with the computed length field, secondary header, payload (R161). -/
def spBody (h : Header) (t : Nat) (inp : Bytes) : Bytes :=
  phPack { h with pdl := BitVec.ofNat 16 (t - 1) } ++ inp

/-- SP_ENCODE (R161), its checks in the order of R275. `sec ++ pay` is the operand itself. -/
def execSpEncode (inp : Bytes) (s : State) : Result :=
  let sh := s.shlen.toNat
  if sh > inp.length then .next (raise .illegalCommand s)
  else
    let sec := memRead inp 0 sh
    let pay := memRead inp sh (inp.length - sh)
    let t := sec.length + pay.length + trailerLen s.crcEn
    if t > consts.maxTrailing then .next (raise .payloadTooLarge s)
    else if t = 0 then .next (raise .emptyDataField s)
    else
      let body := spBody s.hdr t (sec ++ pay)
      let s' := { s with hdr := { s.hdr with pdl := BitVec.ofNat 16 (t - 1) } }
      if s.crcEn then
        let c := crc16 body
        .next (finish (body ++ bytes16 c) { s' with crcv := c })
      else .next (finish body s')

/-- `spDecode(b, crcEn)` (R162): the packet and the bytes used, or the error. -/
def spDecode (b : Bytes) (crcEn : Bool) : Except Code (Packet × Nat) :=
  if b.length < consts.hdrLen then .error .truncatedHeader
  else
    let f := phUnpack (memRead b 0 consts.hdrLen)
    let need := f.pdl.toNat + 1
    if b.length < consts.hdrLen + need then .error .truncatedPacket
    else
      let tr := memRead b consts.hdrLen need
      if crcEn then
        if need < consts.crcLen then .error .truncatedPacket
        else
          let recv := be16 tr (need - consts.crcLen)
          if crc16 (memRead b 0 (consts.hdrLen + need - consts.crcLen)) ≠ recv then .error .checksumMismatch
          else .ok ({ hdr := f, data := memRead tr 0 (need - consts.crcLen), crc := some recv }, consts.hdrLen + need)
      else .ok ({ hdr := f, data := tr, crc := none }, consts.hdrLen + need)

/-- SP_DECODE (R163). -/
def execSpDecode (inp : Bytes) (s : State) : Result :=
  match spDecode inp s.crcEn with
  | .error e => .next (raiseDecode e s)
  | .ok (p, used) =>
    .next (finish p.data { s with hdr := p.hdr
                                  crcv := p.crc.getD s.crcv
                                  consumed := BitVec.ofNat 32 used })

end Sys2Proof.Machine
end

