-- ==== Sys2Proof/Machine/Framer.lean ====
section
/-! DEFINITION. The stream framer (44_stream_framer.md). -/

namespace Sys2Proof.Machine

/-- `emit(ev)` (00_scope.md R14): append one event to EVQ. -/
def emit (e : Event) (s : State) : State := { s with evq := s.evq ++ [e] }

/-- `Skipped(n)` for a count that is not 0, nothing for 0 (R231, R234). -/
def emitSkipped (n : Word) (s : State) : State := if n = 0 then s else emit (.skipped n) s

/-- One byte in Searching with marker `m` (R234). -/
def frSearch (m : Bytes) (b : Byte) (s : State) : State :=
  let w := s.fwin ++ [b]
  if w = m then
    { emitSkipped s.fskip s with fskip := 0, fwin := [], fbuf := [], fmode := .accumulating }
  else if w.length = m.length then { s with fskip := satIncr s.fskip, fwin := w.drop 1 }
  else { s with fwin := w }

/-- `unit(u)` (R237): decode a complete unit, report it, and choose the next mode. -/
def frUnit (u : Bytes) (s : State) : State :=
  match spDecode u s.crcEn with
  | .ok (p, _) => { emit (.packet p) s with fbuf := [], fmode := s.afterUnit }
  | .error e => { emit (.unitError e) s with fbuf := [], fmode := s.home }

/-- Whether the bytes held are a complete unit: the header is there and the length is what it declares (R235). -/
def unitComplete (u : Bytes) : Bool :=
  decide (consts.hdrLen ≤ u.length) && decide (u.length = consts.hdrLen + (be16 u 4).toNat + 1)

/-- One byte in Accumulating (R235). -/
def frAccumulate (b : Byte) (s : State) : State :=
  let u := s.fbuf ++ [b]
  if u.length > s.maxbuf.toNat then { emit (.unitError .frameTooLarge) s with fbuf := [], fmode := s.home }
  else if unitComplete u then frUnit u s
  else { s with fbuf := u }

/-- `frByte(b)` (R233). With no marker the framer is always in Accumulating (R232), so a state that is Searching with no
marker, which no run reaches, accumulates. DESIGN CHOICE; safe (log 9). -/
def frByte (s : State) (b : Byte) : State :=
  match s.fmode, s.syncMarker with
  | .searching, some m => frSearch m b s
  | .searching, none => frAccumulate b s
  | .accumulating, _ => frAccumulate b s

/-- The bytes of a chunk in order (R236). -/
def frBytes (inp : Bytes) (s : State) : State := inp.foldl frByte s

/-- FRAMER_PUSH (R236): per-unit errors are events, STATUS.CODE is 0 whatever they are (60_exceptions.md R279). -/
def execFramerPush (inp : Bytes) (s : State) : Result :=
  let t := frBytes inp { s with evq := [] }
  .next { t with out := [], status := .done false }

/-- FRAMER_RESET (R240). -/
def execFramerReset (inp : Bytes) (s : State) : Result :=
  if inp.length ≠ 0 then .next (raise .illegalCommand s)
  else .next (finish [] (framerClear s))

end Sys2Proof.Machine
end

