-- ==== Sys2Proof/Machine/Dispatch.lean ====
section
/-! DEFINITION. Which meaning each command has (30_encoding.md R82). -/

namespace Sys2Proof.Machine

def exec (i : Instr) (s : State) : Host.Outcome State Fault Refusal :=
  match i with
  | .crcCompute inp => Sys2Proof.Machine.execCrcCompute inp s
  | .crcVerify inp => Sys2Proof.Machine.execCrcVerify inp s
  | .phEncode inp => Sys2Proof.Machine.execPhEncode inp s
  | .phDecode inp => Sys2Proof.Machine.execPhDecode inp s
  | .spEncode inp => Sys2Proof.Machine.execSpEncode inp s
  | .spDecode inp => Sys2Proof.Machine.execSpDecode inp s
  | .bchEncodeBlock inp => Sys2Proof.Machine.execBchEncodeBlock inp s
  | .bchDecodeBlock inp => Sys2Proof.Machine.execBchDecodeBlock inp s
  | .cltuEncode inp => Sys2Proof.Machine.execCltuEncode inp s
  | .randomize inp => Sys2Proof.Machine.execRandomize inp s
  | .framerPush inp => Sys2Proof.Machine.execFramerPush inp s
  | .framerReset inp => Sys2Proof.Machine.execFramerReset inp s

end Sys2Proof.Machine
end

