-- ==== Sys2Proof/Machine/Step.lean ====
section
/-! DEFINITION. One step: the host's next action, complete before the one after it (20_memory.md R65, R69, R70). -/

namespace Sys2Proof.Machine

/-- `CMD w, IN` (30_encoding.md R80, R81): a command the decoder rejects raises `IllegalCommand` and does nothing else
(R83). So does one whose operand is over IN_MAX: R76 lets it write nothing else, where R273 read by the opcode alone would
have PH_DECODE and SP_DECODE clear CONSUMED and CRC_VERIFY write CRCV. DESIGN CHOICE; unsafe (log 19). -/
def runCommand (c : Command) (s : State) : Host.Outcome State Fault Refusal :=
  match decode s.params.inMax c with
  | .ok i => exec i s
  | .error _ => .next (raise .illegalCommand s)

/-- Perform one host action (R70). -/
def perform (a : HostAction) (s : State) : Host.Outcome State Fault Refusal :=
  match a with
  | .wr r v => .next (writeReg r v s)
  | .rd r => .next { s with rdValue := some (readReg s r) }
  | .cmd c => runCommand c s
  | .reset => .next (hostReset s)

/-- One step: take the host's next action and perform it. With none pending the core is idle and keeps all its state
(60_exceptions.md R285; 70_reset_and_hazards.md R301). -/
def step (s : State) : Host.Outcome State Fault Refusal :=
  match s.pending with
  | [] => .next s
  | a :: rest => perform a { s with pending := rest }

/-- The host's next action is to issue the command word `w` with the empty operand (log 1, log 12). -/
def State.withFetchWord (s : State) (nbits w : Nat) : State :=
  { s with pending := .cmd ⟨BitVec.ofNat 32 (w % 2 ^ nbits), []⟩ :: s.pending }

end Sys2Proof.Machine
end

