-- ==== Sys2Proof/Machine/HostProgram.lean ====
section
/-! DEFINITION. The host's side: assembly forms and pseudo-instructions (30_encoding.md R86, R87), the sequence count
(41_primary_header.md R145) and the CLTU decode path (43_bch_cltu.md R203). No command of the core calls any of it. -/

namespace Sys2Proof.Machine

/-- The mnemonic of a command (R82). -/
def mnemonicOf : Instr → String
  | .crcCompute _ => "CRC_COMPUTE"
  | .crcVerify _ => "CRC_VERIFY"
  | .phEncode _ => "PH_ENCODE"
  | .phDecode _ => "PH_DECODE"
  | .spEncode _ => "SP_ENCODE"
  | .spDecode _ => "SP_DECODE"
  | .bchEncodeBlock _ => "BCH_ENCODE_BLOCK"
  | .bchDecodeBlock _ => "BCH_DECODE_BLOCK"
  | .cltuEncode _ => "CLTU_ENCODE"
  | .randomize _ => "RANDOMIZE"
  | .framerPush _ => "FRAMER_PUSH"
  | .framerReset _ => "FRAMER_RESET"

/-- The command of a mnemonic (R82) or of one of the two second names (R87). -/
def commandNamed (name : String) (inp : Bytes) : Option Instr :=
  if name = "CRC_COMPUTE" then some (.crcCompute inp)
  else if name = "CRC_VERIFY" then some (.crcVerify inp)
  else if name = "PH_ENCODE" then some (.phEncode inp)
  else if name = "PH_DECODE" then some (.phDecode inp)
  else if name = "SP_ENCODE" then some (.spEncode inp)
  else if name = "SP_DECODE" then some (.spDecode inp)
  else if name = "BCH_ENCODE_BLOCK" then some (.bchEncodeBlock inp)
  else if name = "BCH_DECODE_BLOCK" then some (.bchDecodeBlock inp)
  else if name = "CLTU_ENCODE" then some (.cltuEncode inp)
  else if name = "RANDOMIZE" then some (.randomize inp)
  else if name = "FRAMER_PUSH" then some (.framerPush inp)
  else if name = "FRAMER_RESET" then some (.framerReset inp)
  else if name = "DERANDOMIZE" then some (.randomize inp)
  else if name = "CRC_CHECK" then some (.crcVerify inp)
  else none

/-- A piece of an operand (R86); an operand is a list of them. -/
inductive OperandPiece
  /-- `[18 12 C0 03]`. -/
  | bytes (b : Bytes)
  /-- `"secret payload"`, ASCII (log 14). -/
  | ascii (s : String)
  /-- `rep(<byte>, <n>)`. -/
  | copies (b : Byte) (n : Nat)
  deriving DecidableEq, Repr

/-- The bytes a piece stands for (R86). -/
def pieceBytes : OperandPiece → Bytes
  | .bytes b => b
  | .ascii s => s.toList.map fun ch => BitVec.ofNat 8 ch.toNat
  | .copies b n => rep b n

/-- Juxtaposed pieces are concatenated; no piece is the empty operand (R86). -/
def operandBytes (ps : List OperandPiece) : Bytes := ps.flatMap pieceBytes

/-- A line of a host program (R86, R87), its register given by number (`Reg.num` for a name). -/
inductive AsmLine
  | wr (r : BitVec 8) (v : Word)
  | rd (r : BitVec 8)
  | command (name : String) (operand : List OperandPiece)
  | setSync (marker : Bytes)
  | clrSync
  deriving DecidableEq, Repr

/-- `x[CFG]` with SYNC_EN and SYNC_LEN replaced (R87). -/
def cfgWithSync (s : State) (en : Bool) (k : Nat) : Word :=
  (regValue s .cfg &&& 3) ||| ((BitVec.ofBool en).setWidth 32 <<< 2) ||| (BitVec.ofNat 32 k <<< 3)

/-- `SET_SYNC` (R87): the marker bytes into SYNC0 and SYNC1, missing bytes 0, then CFG. None for a length outside 1 to 8,
for which R87 gives no expansion (log 14). -/
def setSync (s : State) (m : Bytes) : Option (List HostAction) :=
  if 1 ≤ m.length ∧ m.length ≤ consts.syncMaxLen then
    some [.wr Reg.sync0.num (packWord (byteAt m 0) (byteAt m 1) (byteAt m 2) (byteAt m 3)),
          .wr Reg.sync1.num (packWord (byteAt m 4) (byteAt m 5) (byteAt m 6) (byteAt m 7)),
          .wr Reg.cfg.num (cfgWithSync s true m.length)]
  else none

/-- `CLR_SYNC` (R87). -/
def clrSync (s : State) : List HostAction := [.wr Reg.cfg.num (cfgWithSync s false 0)]

/-- The host actions a line stands for, with `x[CFG]` as it is in `s` (R86, R87). -/
def assemble (s : State) : AsmLine → Option (List HostAction)
  | .wr r v => some [.wr r v]
  | .rd r => some [.rd r]
  | .command name ps => (commandNamed name (operandBytes ps)).map fun i => [.cmd (encode i)]
  | .setSync m => setSync s m
  | .clrSync => some (clrSync s)

/-- The sequence count a host writes next: `(seqc + 1) mod 2^14` (R145). -/
def nextSeqCount (c : BitVec 14) : BitVec 14 := c + 1

/-- BCH_DECODE_BLOCK on each of `n` codeblocks in order, the results concatenated; none if one is uncorrectable, where the
host of this path gives the unit up (R203). -/
def decodeBlocks : Nat → Bytes → Option Bytes
  | 0, _ => some []
  | n + 1, c =>
    match bchDec (c.take 8), decodeBlocks n (c.drop 8) with
    | some (d, _), some rest => some (d ++ rest)
    | _, _ => none

/-- The host's decode path (R203) for a CLTU of a frame of `n` bytes: drop start and tail, decode the codeblocks, take the
frame, derandomize. -/
def hostCltuDecode (n : Nat) (randEn : Bool) (c : Bytes) : Option Bytes :=
  let body := (c.drop 2).take (c.length - 10)
  (decodeBlocks (body.length / 8) body).map fun u => if randEn then rand (u.take n) else u.take n

end Sys2Proof.Machine
end

