-- ==== Sys2Proof/Safety.lean ====
section
/-! DEFINITION. The machine's invariant and the words the statements use. The core has no way to stop
(60_exceptions.md R270), so a safe run is one whose states meet the invariant. -/

namespace Sys2Proof.Machine

/-- CFG holds a value a `WR` can leave (10_state.md R24, R39): SYNC_LEN at most 8, at least 1 with SYNC_EN. -/
def State.cfgLegal (s : State) : Bool :=
  decide (s.syncLen ≤ 8) && (!s.syncEn || decide (1 ≤ s.syncLen))

/-- SHLEN is at most 65536 (R30). -/
def State.shlenLegal (s : State) : Bool := decide (s.shlen.toNat ≤ 65536)

/-- STATUS holds a code a command can end with (R274), and CORR only with success (R31). -/
def State.statusLegal (s : State) : Bool :=
  s.status.code != .invalidFrameLength && s.status.code != .frameTooLarge
    && (!s.status.corr || s.status.code == .success)

/-- The framer's bounds (44_stream_framer.md R232, R242): in Searching a marker is configured, FBUF is empty and FWIN is
shorter than the marker; in Accumulating FWIN and FSKIP are empty, FBUF fits MAXBUF and is no complete unit. -/
def State.framerLegal (s : State) : Bool :=
  match s.fmode with
  | .searching => s.syncEn && s.fbuf.isEmpty && decide (s.fwin.length < s.syncLen)
  | .accumulating =>
    s.fwin.isEmpty && s.fskip == 0 && decide (s.fbuf.length ≤ s.maxbuf.toNat)
      && decide (s.fbuf.length < 6 ∨ s.fbuf.length < 6 + (be16 s.fbuf 4).toNat + 1)

/-- The number of trailer bytes a decoded packet had: 2 with a CRC, else 0. -/
def Packet.trailer (p : Packet) : Nat :=
  match p.crc with
  | some _ => 2
  | none => 0

/-- An event the framer can emit (30_encoding.md R93): a skip count that is not 0, a packet whose data and trailer have the
declared length, or one of the three per-unit errors. -/
def Event.legal : Event → Bool
  | .skipped n => n != 0
  | .packet p => decide (p.data.length + p.trailer = p.hdr.pdl.toNat + 1)
  | .unitError c => c == .truncatedPacket || c == .checksumMismatch || c == .frameTooLarge

/-- The invariant of the machine: what every state a run reaches looks like. -/
abbrev State.Inv (s : State) : Prop :=
  s.cfgLegal = true ∧ s.shlenLegal = true ∧ s.statusLegal = true ∧ s.framerLegal = true ∧ s.evq.all Event.legal = true

/-- The framer's part of the state (R230). -/
abbrev sameFramer (s t : State) : Prop :=
  t.fmode = s.fmode ∧ t.fskip = s.fskip ∧ t.fbuf = s.fbuf ∧ t.fwin = s.fwin

/-- What no command writes: the configuration registers, SHLEN (R23), and the model's own fields. -/
abbrev sameSetup (s t : State) : Prop :=
  t.cfg = s.cfg ∧ t.sync0 = s.sync0 ∧ t.sync1 = s.sync1 ∧ t.maxbuf = s.maxbuf ∧ t.shlen = s.shlen
    ∧ t.params = s.params ∧ t.pending = s.pending ∧ t.rdValue = s.rdValue

/-- The two framer commands; the other ten are the codec commands (60_exceptions.md R283). -/
def isFramerCommand : Instr → Bool
  | .crcCompute _ => false
  | .crcVerify _ => false
  | .phEncode _ => false
  | .phDecode _ => false
  | .spEncode _ => false
  | .spDecode _ => false
  | .bchEncodeBlock _ => false
  | .bchDecodeBlock _ => false
  | .cltuEncode _ => false
  | .randomize _ => false
  | .framerPush _ => true
  | .framerReset _ => true

/-- When `WR R, v` is rejected, in the numbers of R39: reserved or RO registers, then each register's legal values. -/
abbrev writeRejected (r : BitVec 8) (v : Word) : Prop :=
  (4 ≤ r.toNat ∧ r.toNat ≤ 7) ∨ 0x10 ≤ r.toNat
    ∨ (r.toNat = 0x00 ∧ (v.toNat / 2 ^ 7 ≠ 0 ∨ v.toNat / 2 ^ 3 % 16 > 8 ∨ (v.toNat / 2 ^ 2 % 2 = 1 ∧ v.toNat / 2 ^ 3 % 16 = 0)))
    ∨ (r.toNat = 0x08 ∧ v.toNat ≥ 2 ^ 3) ∨ (r.toNat = 0x09 ∧ v.toNat ≥ 2 ^ 1) ∨ (r.toNat = 0x0A ∧ v.toNat ≥ 2 ^ 1)
    ∨ (r.toNat = 0x0B ∧ v.toNat ≥ 2 ^ 11) ∨ (r.toNat = 0x0C ∧ v.toNat ≥ 2 ^ 2) ∨ (r.toNat = 0x0D ∧ v.toNat ≥ 2 ^ 14)
    ∨ (r.toNat = 0x0E ∧ v.toNat ≥ 2 ^ 16) ∨ (r.toNat = 0x0F ∧ v.toNat > 65536)

/-- Flip wire bit `w` of a byte string: bit `7 - w mod 8` of byte `w div 8` (43_bch_cltu.md R190). -/
def flipBit (w : Nat) (c : Bytes) : Bytes := c.modify (w / 8) (· ^^^ (0x80#8 >>> (w % 8)))

/-- The bit sequence `a(n)` of the randomizer by its recurrence (R204), independently of the shift register. -/
def prnBit : Nat → Bool
  | 0 => true
  | 1 => true
  | 2 => true
  | 3 => true
  | 4 => true
  | 5 => true
  | 6 => true
  | 7 => true
  | n + 8 => prnBit n ^^ prnBit (n + 1) ^^ prnBit (n + 2) ^^ prnBit (n + 3) ^^ prnBit (n + 4) ^^ prnBit (n + 6)

/-- Flip at most one bit in each of `n` codeblocks: `e k` names the wire bit of block `k`, if any. -/
def flipOnePerBlock (e : Nat → Option (Fin 64)) : Nat → Nat → Bytes → Bytes
  | _, 0, _ => []
  | k, n + 1, c =>
    (match e k with
      | some w => flipBit w.val (c.take 8)
      | none => c.take 8) ++ flipOnePerBlock e (k + 1) n (c.drop 8)

/-- `p` is a valid packet for the current CRC_EN: it decodes, and is used up (R243). -/
abbrev validPacket (crcEn : Bool) (p : Bytes) (pk : Packet) : Prop := spDecode p crcEn = .ok (pk, p.length)

/-- The two states agree on the registers the rule of a codec command names (60_exceptions.md R283; "Operands" of R122, R123,
R142, R143, R161, R163, R196, R197, R202, R206). A framer command reads the framer state, so nothing is asked of it. -/
def readsSame (i : Instr) (s t : State) : Prop :=
  match i with
  | .crcCompute _ => True
  | .crcVerify _ => True
  | .phEncode _ => t.hdr = s.hdr
  | .phDecode _ => True
  | .spEncode _ => t.crcEn = s.crcEn ∧ t.shlen = s.shlen ∧ { t.hdr with pdl := s.hdr.pdl } = s.hdr
  | .spDecode _ => t.crcEn = s.crcEn
  | .bchEncodeBlock _ => True
  | .bchDecodeBlock _ => True
  | .cltuEncode _ => t.randEn = s.randEn
  | .randomize _ => True
  | .framerPush _ => True
  | .framerReset _ => True

/-- The two states after a command agree on the result and field registers it writes (10_state.md R23, R32, R33; "Effects" of
the rules `readsSame` names): CONSUMED always, CRC_VERIFY's CRCV with two bytes or more, the others on success. -/
def sameWritten (i : Instr) (s t : State) : Prop :=
  match i with
  | .crcCompute _ => t.crcv = s.crcv
  | .crcVerify inp => 2 ≤ inp.length → t.crcv = s.crcv
  | .phEncode _ => True
  | .phDecode _ => t.consumed = s.consumed ∧ (s.status.code = .success → t.hdr = s.hdr)
  | .spEncode _ => s.status.code = .success → t.hdr = s.hdr ∧ (s.crcEn = true → t.crcv = s.crcv)
  | .spDecode _ =>
    t.consumed = s.consumed ∧ (s.status.code = .success → t.hdr = s.hdr ∧ (s.crcEn = true → t.crcv = s.crcv))
  | .bchEncodeBlock _ => True
  | .bchDecodeBlock _ => True
  | .cltuEncode _ => True
  | .randomize _ => True
  | .framerPush _ => True
  | .framerReset _ => True

/-- The codes each command can end with (60_exceptions.md R274). -/
def endCodes : Instr → List Code
  | .crcCompute _ => [.success]
  | .crcVerify _ => [.success, .checksumMismatch]
  | .phEncode _ => [.success, .illegalCommand]
  | .phDecode _ => [.success, .truncatedHeader]
  | .spEncode _ => [.success, .payloadTooLarge, .emptyDataField, .illegalCommand]
  | .spDecode _ => [.success, .truncatedHeader, .truncatedPacket, .checksumMismatch]
  | .bchEncodeBlock _ => [.success, .illegalCommand]
  | .bchDecodeBlock _ => [.success, .uncorrectableBlock, .illegalCommand]
  | .cltuEncode _ => [.success]
  | .randomize _ => [.success]
  | .framerPush _ => [.success]
  | .framerReset _ => [.success, .illegalCommand]

end Sys2Proof.Machine
end

