-- ==== Sys2Proof/Certificates/Slice0/Obligations.lean ====
section
/-! DEFINITION. The statements for the provers, one `def Obligations.<Name> : Prop` each. They hold of every value of the
OPEN parameters IN_MAX and FRAMER_REARM, which stand in State, unless a hypothesis names one. -/

namespace Sys2Proof.Machine

/-- The polynomial over GF(2) with coefficient `f i` at `x^i`, `i < n` (00_scope.md R13). -/
noncomputable def bitPoly (n : Nat) (f : Nat → Bool) : Polynomial (ZMod 2) :=
  ∑ i ∈ Finset.range n, if f i then Polynomial.X ^ i else 0

/-- The polynomial of the bits of a byte string, the first bit on the wire of highest degree (R13). -/
noncomputable def bytesPoly (s : Bytes) : Polynomial (ZMod 2) :=
  bitPoly (8 * s.length) fun i => (byteAt s (s.length - 1 - i / 8)).getLsbD (i % 8)

/-- The CRC generator `x^16 + x^12 + x^5 + 1` (40_crc.md R120). -/
noncomputable def crcGenerator : Polynomial (ZMod 2) :=
  Polynomial.X ^ 16 + Polynomial.X ^ 12 + Polynomial.X ^ 5 + 1

/-- The BCH generator `x^7 + x^6 + x^2 + 1` (43_bch_cltu.md R190). -/
noncomputable def bchGenerator : Polynomial (ZMod 2) :=
  Polynomial.X ^ 7 + Polynomial.X ^ 6 + Polynomial.X ^ 2 + 1

/-- Packets one after another, each after its own marker (44_stream_framer.md R243). -/
def markedStream (m : Bytes) (ps : List Bytes) : Bytes := ps.flatMap (m ++ ·)

/-- The `Skipped` event for `n` discarded bytes, none for 0; the count saturates (R231, 10_state.md R37). -/
def skipEvents (n : Nat) : List Event :=
  if n = 0 then [] else [.skipped (BitVec.ofNat 32 (min n (2 ^ 32 - 1)))]

end Sys2Proof.Machine

open Sys2Proof Sys2Proof.Machine

/-! ### Encoding, stepping and host actions -/

/-- R80 to R82: a word and operand decode to a command exactly when they are its encoding and the operand fits IN_MAX. -/
def Obligations.DecodeEncodeAgree : Prop :=
  ∀ (inMax : Nat) (c : Command) (i : Instr),
    decode inMax c = .ok i ↔ encode i = c ∧ i.wellFormed inMax = true

/-- R82: each of the twelve words of the opcode map, written out, selects the command of its row, with any operand within
IN_MAX; and words R83 calls illegal, and an operand over IN_MAX (R76), do not. That an opcode-table word, which names no
operand, is read with the empty one, as the two `decodeTableWord` clauses say, is the model's choice (log 12). -/
def Obligations.OpcodeMapWordsDecode : Prop :=
  (∀ (inMax : Nat) (inp : Bytes), inp.length ≤ inMax →
      decode inMax ⟨0x00000001, inp⟩ = .ok (.crcCompute inp)
        ∧ decode inMax ⟨0x00000002, inp⟩ = .ok (.crcVerify inp)
        ∧ decode inMax ⟨0x00000010, inp⟩ = .ok (.phEncode inp)
        ∧ decode inMax ⟨0x00000011, inp⟩ = .ok (.phDecode inp)
        ∧ decode inMax ⟨0x00000020, inp⟩ = .ok (.spEncode inp)
        ∧ decode inMax ⟨0x00000021, inp⟩ = .ok (.spDecode inp)
        ∧ decode inMax ⟨0x00000030, inp⟩ = .ok (.bchEncodeBlock inp)
        ∧ decode inMax ⟨0x00000031, inp⟩ = .ok (.bchDecodeBlock inp)
        ∧ decode inMax ⟨0x00000032, inp⟩ = .ok (.cltuEncode inp)
        ∧ decode inMax ⟨0x00000033, inp⟩ = .ok (.randomize inp)
        ∧ decode inMax ⟨0x00000040, inp⟩ = .ok (.framerPush inp)
        ∧ decode inMax ⟨0x00000041, inp⟩ = .ok (.framerReset inp))
    ∧ decodeTableWord 32 0x00000001 = some (.crcCompute []) ∧ decodeTableWord 32 0x00000011 = some (.phDecode [])
    ∧ decode 9 ⟨0x00000140, []⟩ = .error .reservedBits ∧ decode 9 ⟨0x00000003, []⟩ = .error .unassignedOpcode
    ∧ decode 1 ⟨0x00000040, [0, 0]⟩ = .error .operandTooLong

/-- A step on an issued command that decodes is `exec` of it; the action is taken from the pending list (R69, R81). -/
def Obligations.StepRunsDecodedCommand : Prop :=
  ∀ (s : State) (c : Command) (rest : List HostAction) (i : Instr),
    s.pending = .cmd c :: rest → decode s.params.inMax c = .ok i → step s = exec i { s with pending := rest }

/-- R81, R83, R76: a word of the map with an operand within IN_MAX selects exactly one command and runs it; every other
`CMD` raises `IllegalCommand` and writes nothing but STATUS, OUT and EVQ. That an operand over IN_MAX leaves CONSUMED under
PH_DECODE and SP_DECODE, and CRCV under CRC_VERIFY, is the model's choice (log 19). -/
def Obligations.CommandWordsRunOrAreIllegal : Prop :=
  ∀ (s : State) (w : Word) (inp : Bytes) (rest : List HostAction), s.pending = .cmd ⟨w, inp⟩ :: rest →
    let ok := w.toNat ∈ [0x01, 0x02, 0x10, 0x11, 0x20, 0x21, 0x30, 0x31, 0x32, 0x33, 0x40, 0x41]
      ∧ inp.length ≤ s.params.inMax
    (ok → ∃ i, encode i = ⟨w, inp⟩ ∧ (∀ j, encode j = ⟨w, inp⟩ → j = i) ∧ step s = exec i { s with pending := rest })
      ∧ (¬ok → step s = .next { s with pending := rest, status := { code := .illegalCommand, corr := false }
                                       out := [], evq := [] })

/-- R270: no host action stops the core, so every step answers a next state. That a step with nothing pending is a step at
all is the model's choice (log 1); that the pending list becomes its tail, across a reset too, is the model's as well
(logs 1 and 15). -/
def Obligations.StepNeverStops : Prop := ∀ s : State, ∃ t, step s = .next t ∧ t.pending = s.pending.tail

/-- R285: with no action pending the core keeps all its state. That this is a step is the model's choice (log 1). -/
def Obligations.IdleStepKeepsState : Prop := ∀ s : State, s.pending = [] → step s = .next s

/-- R39: when a `WR` is rejected and what that leaves; otherwise the register holds the value, STATUS is unchanged and every
other register reads as before, the framer registers after a configuration write apart (R41). -/
def Obligations.WriteRejectedOrStored : Prop :=
  ∀ (s : State) (r : BitVec 8) (v : Word) (rest : List HostAction), s.pending = .wr r v :: rest →
    (writeRejected r v →
        step s = .next { s with pending := rest, status := { code := .illegalCommand, corr := false } })
      ∧ (¬writeRejected r v → ∃ t, step s = .next t ∧ readReg t r = v ∧ t.status = s.status
          ∧ (∀ n, n ≠ r → ¬(r.toNat ≤ 3 ∧ 0x13 ≤ n.toNat ∧ n.toNat ≤ 0x15) → readReg t n = readReg s n)
          ∧ t.out = s.out ∧ t.evq = s.evq ∧ t.params = s.params ∧ t.rdValue = s.rdValue ∧ t.pending = rest)

/-- R41: an accepted `WR` to CFG, SYNC0, SYNC1 or MAXBUF resets the framer, whatever the value; any other accepted `WR` does
not touch framer state. -/
def Obligations.ConfigWriteResetsFramer : Prop :=
  ∀ (s : State) (r : BitVec 8) (v : Word) (rest : List HostAction),
    s.pending = .wr r v :: rest → ¬writeRejected r v →
    ∃ t, step s = .next t
      ∧ (r.toNat ≤ 3 → t.fbuf = [] ∧ t.fwin = [] ∧ t.fskip = 0
          ∧ t.fmode = if t.cfg.getLsbD 2 then .searching else .accumulating)
      ∧ (3 < r.toNat → sameFramer s t)

/-- R40: `RD` returns the register, or 0 for a reserved number, and changes no state of the core. That what it returned
stands in `rdValue`, a field of the model's own that the read does change, is the model's choice (log 3). -/
def Obligations.ReadReturnsRegister : Prop :=
  ∀ (s : State) (n : BitVec 8) (rest : List HostAction), s.pending = .rd n :: rest →
    step s = .next { s with pending := rest, rdValue := some (readReg s n) }
      ∧ ((4 ≤ n.toNat ∧ n.toNat ≤ 7) ∨ 0x16 ≤ n.toNat → readReg s n = 0)

/-- R23: the register map, all eighteen numbers, with the layout of STATUS and FMODE (R31, R34); FBUFLEN's clause is R36's
length, in every state that meets the invariant. -/
def Obligations.RegisterMapReads : Prop :=
  ∀ s : State,
    (readReg s 0x00).toNat = s.cfg.toNat ∧ readReg s 0x01 = s.sync0 ∧ readReg s 0x02 = s.sync1
      ∧ readReg s 0x03 = s.maxbuf ∧ (readReg s 0x08).toNat = s.hdr.ver.toNat
      ∧ (readReg s 0x09).toNat = s.hdr.ptype.toNat ∧ (readReg s 0x0A).toNat = s.hdr.shf.toNat
      ∧ (readReg s 0x0B).toNat = s.hdr.apid.toNat ∧ (readReg s 0x0C).toNat = s.hdr.seqf.toNat
      ∧ (readReg s 0x0D).toNat = s.hdr.seqc.toNat ∧ (readReg s 0x0E).toNat = s.hdr.pdl.toNat
      ∧ (readReg s 0x0F).toNat = s.shlen.toNat ∧ (readReg s 0x10).toNat = s.crcv.toNat
      ∧ (readReg s 0x11).toNat = s.status.code.num.toNat + 16 * s.status.corr.toNat
      ∧ readReg s 0x12 = s.consumed
      ∧ (readReg s 0x13).toNat = (if s.fmode = .accumulating then 1 else 0)
      ∧ (s.Inv →
          (readReg s 0x14).toNat = if s.fmode = .accumulating then s.fbuf.length else s.fwin.length)
      ∧ readReg s 0x15 = s.fskip

/-- R36: FBUFLEN is the length of FBUF in Accumulating and of FWIN in Searching, in every state that meets the invariant; it is
RO and reads 0 after reset. -/
def Obligations.FbuflenReadsHeldBytes : Prop :=
  (∀ s : State, s.Inv →
      (s.fmode = .accumulating → (readReg s 0x14).toNat = s.fbuf.length)
        ∧ (s.fmode = .searching → (readReg s 0x14).toNat = s.fwin.length))
    ∧ readReg State.reset 0x14 = 0 ∧ ∀ (v : Word) (s : State), writeReg 0x14 v s = rejectWrite s

/-- R300 with the values of R43: the reset action, from any state. That `params`, `pending` and `rdValue`, which the model
adds to State, stay as they are is the model's inference (log 15). -/
def Obligations.ResetActionSetsEverything : Prop :=
  ∀ (s : State) (rest : List HostAction), s.pending = .reset :: rest →
    step s = .next { cfg := 0, sync0 := 0, sync1 := 0, maxbuf := 65542
                     hdr := { ver := 0, ptype := 0, shf := 0, apid := 0, seqf := 0, seqc := 0, pdl := 0 }
                     shlen := 0, crcv := 0, status := { code := .success, corr := false }, consumed := 0
                     fmode := .accumulating, fskip := 0, fbuf := [], fwin := [], out := [], evq := []
                     params := s.params, pending := rest, rdValue := s.rdValue }

/-- R43: what every register reads after reset, and that the buffers are empty. -/
def Obligations.ResetValuesRead : Prop :=
  (∀ n : BitVec 8, readReg State.reset n = if n = 0x03 then 65542 else if n = 0x13 then 1 else 0)
    ∧ State.reset.fbuf = [] ∧ State.reset.fwin = [] ∧ State.reset.out = [] ∧ State.reset.evq = []

/-! ### The CRC engine -/

/-- R122: CRC_COMPUTE on any operand. -/
def Obligations.CrcComputeResult : Prop :=
  ∀ (inp : Bytes) (s : State),
    exec (.crcCompute inp) s =
      .next { s with crcv := crc16 inp, status := { code := .success, corr := false }, evq := []
                     out := [BitVec.ofNat 8 ((crc16 inp).toNat / 256), BitVec.ofNat 8 ((crc16 inp).toNat % 256)] }

/-- R123: CRC_VERIFY. An operand of two bytes or more is a string followed by its trailer `hi`, `lo`: CRCV is written, and
the code says whether the trailer is the CRC; a shorter one never verifies and leaves CRCV. -/
def Obligations.CrcVerifyResult : Prop :=
  (∀ (body : Bytes) (hi lo : Byte) (s : State),
      exec (.crcVerify (body ++ [hi, lo])) s =
        .next { s with crcv := crc16 body, out := [], evq := []
                       status := { code := if (crc16 body).toNat = hi.toNat * 256 + lo.toNat then .success
                                           else .checksumMismatch, corr := false } })
    ∧ ∀ (inp : Bytes) (s : State), inp.length < 2 →
        exec (.crcVerify inp) s =
          .next { s with status := { code := .checksumMismatch, corr := false }, out := [], evq := [] }

/-- R121: the zero residue, and the two printed values. -/
def Obligations.CrcZeroResidue : Prop :=
  (∀ s : Bytes, crc16 (s ++ bytes16 (crc16 s)) = 0) ∧ crc16 [] = 0xFFFF
    ∧ crc16 [0x31, 0x32, 0x33, 0x34, 0x35, 0x36, 0x37, 0x38, 0x39] = 0x29B1

/-- R120: the CRC is the remainder of `x^(8n) F(x) + S(x) x^16` by the generator, with `F` all ones of degree 15. -/
def Obligations.CrcIsPolynomialRemainder : Prop :=
  ∀ s : Bytes,
    bitPoly 16 (fun i => (crc16 s).getLsbD i) =
      (Polynomial.X ^ (8 * s.length) * bitPoly 16 (fun _ => true) + bytesPoly s * Polynomial.X ^ 16) %ₘ crcGenerator

/-! ### The primary header codec -/

/-- R142 with the byte terms of R88: PH_ENCODE of an empty operand packs the field registers, a non-empty one is
`IllegalCommand`. -/
def Obligations.PhEncodeResult : Prop :=
  ∀ (inp : Bytes) (s : State),
    (inp = [] →
        exec (.phEncode inp) s =
          .next { s with
            status := { code := .success, corr := false }, evq := []
            out := [BitVec.ofNat 8 (s.hdr.ver.toNat * 32 + s.hdr.ptype.toNat * 16 + s.hdr.shf.toNat * 8
                      + s.hdr.apid.toNat / 256),
                    BitVec.ofNat 8 (s.hdr.apid.toNat % 256),
                    BitVec.ofNat 8 (s.hdr.seqf.toNat * 64 + s.hdr.seqc.toNat / 256),
                    BitVec.ofNat 8 (s.hdr.seqc.toNat % 256),
                    BitVec.ofNat 8 (s.hdr.pdl.toNat / 256), BitVec.ofNat 8 (s.hdr.pdl.toNat % 256)] })
      ∧ (inp ≠ [] →
        exec (.phEncode inp) s =
          .next { s with status := { code := .illegalCommand, corr := false }, out := [], evq := [] })

/-- R143: PH_DECODE unpacks the first six bytes and ignores the rest; fewer than six is `TruncatedHeader`. -/
def Obligations.PhDecodeResult : Prop :=
  (∀ (b0 b1 b2 b3 b4 b5 : Byte) (more : Bytes) (s : State),
      exec (.phDecode ([b0, b1, b2, b3, b4, b5] ++ more)) s =
        .next { s with
          hdr := { ver := BitVec.ofNat 3 (b0.toNat / 32), ptype := BitVec.ofNat 1 (b0.toNat / 16)
                   shf := BitVec.ofNat 1 (b0.toNat / 8), apid := BitVec.ofNat 11 (b0.toNat % 8 * 256 + b1.toNat)
                   seqf := BitVec.ofNat 2 (b2.toNat / 64), seqc := BitVec.ofNat 14 (b2.toNat % 64 * 256 + b3.toNat)
                   pdl := BitVec.ofNat 16 (b4.toNat * 256 + b5.toNat) }
          consumed := 6, status := { code := .success, corr := false }, out := [], evq := [] })
    ∧ ∀ (inp : Bytes) (s : State), inp.length < 6 →
        exec (.phDecode inp) s =
          .next { s with consumed := 0, status := { code := .truncatedHeader, corr := false }, out := [], evq := [] }

/-- R144: packing and unpacking are inverse to each other, and no six bytes are refused. -/
def Obligations.HeaderPackUnpackInverse : Prop :=
  (∀ h : Header, (phPack h).length = 6 ∧ phUnpack (phPack h) = h)
    ∧ ∀ b : Bytes, 6 ≤ b.length → phPack (phUnpack b) = b.take 6

/-- R145 and R311: the count wraps; no command writes a field register but PH_DECODE, SP_DECODE and, its length alone,
SP_ENCODE. -/
def Obligations.FieldRegistersFrame : Prop :=
  (∀ n : BitVec 14, (nextSeqCount n).toNat = (n.toNat + 1) % 2 ^ 14)
    ∧ ∀ (i : Instr) (s t : State), exec i s = .next t →
        (∀ inp, i ≠ .phDecode inp) → (∀ inp, i ≠ .spDecode inp) →
        { t.hdr with pdl := s.hdr.pdl } = s.hdr ∧ ((∀ inp, i ≠ .spEncode inp) → t.hdr = s.hdr)

/-! ### The space packet codec -/

/-- R161: SP_ENCODE, its errors in the order of R275, then the packet. The operand is the secondary header bytes followed by
the payload. -/
def Obligations.SpEncodeResult : Prop :=
  ∀ (inp : Bytes) (s : State),
    let total := inp.length + if s.crcEn then 2 else 0
    let hdr' : Header := { s.hdr with pdl := BitVec.ofNat 16 (total - 1) }
    let body := phPack hdr' ++ inp
    (inp.length < s.shlen.toNat →
        exec (.spEncode inp) s =
          .next { s with status := { code := .illegalCommand, corr := false }, out := [], evq := [] })
      ∧ (s.shlen.toNat ≤ inp.length → 65536 < total →
        exec (.spEncode inp) s =
          .next { s with status := { code := .payloadTooLarge, corr := false }, out := [], evq := [] })
      ∧ (s.shlen.toNat ≤ inp.length → total = 0 →
        exec (.spEncode inp) s =
          .next { s with status := { code := .emptyDataField, corr := false }, out := [], evq := [] })
      ∧ (s.shlen.toNat ≤ inp.length → 1 ≤ total → total ≤ 65536 →
        exec (.spEncode inp) s =
          .next { s with hdr := hdr', crcv := if s.crcEn then crc16 body else s.crcv
                         out := body ++ (if s.crcEn then bytes16 (crc16 body) else [])
                         status := { code := .success, corr := false }, evq := [] })

/-- R163 with `spDecode` of R162: SP_DECODE, its errors in the order of R275, then the packet at the front of the operand. -/
def Obligations.SpDecodeResult : Prop :=
  ∀ (inp : Bytes) (s : State),
    let need := (be16 inp 4).toNat + 1
    let fail (c : Code) : Result :=
      .next { s with consumed := 0, status := { code := c, corr := false }, out := [], evq := [] }
    let good (data : Bytes) (crc : Half) : Result :=
      .next { s with hdr := phUnpack inp, crcv := crc, consumed := BitVec.ofNat 32 (6 + need), out := data
                     status := { code := .success, corr := false }, evq := [] }
    (inp.length < 6 → exec (.spDecode inp) s = fail .truncatedHeader)
      ∧ (6 ≤ inp.length → inp.length < 6 + need → exec (.spDecode inp) s = fail .truncatedPacket)
      ∧ (6 + need ≤ inp.length → s.crcEn = false →
          exec (.spDecode inp) s = good ((inp.drop 6).take need) s.crcv)
      ∧ (6 + need ≤ inp.length → s.crcEn = true → need = 1 → exec (.spDecode inp) s = fail .truncatedPacket)
      ∧ (6 + need ≤ inp.length → s.crcEn = true → 2 ≤ need → crc16 (inp.take (4 + need)) ≠ be16 inp (4 + need) →
          exec (.spDecode inp) s = fail .checksumMismatch)
      ∧ (6 + need ≤ inp.length → s.crcEn = true → 2 ≤ need → crc16 (inp.take (4 + need)) = be16 inp (4 + need) →
          exec (.spDecode inp) s = good ((inp.drop 6).take (need - 2)) (be16 inp (4 + need)))

/-- R164: what SP_ENCODE wrote, SP_DECODE reads back, in any state with the same CFG and whatever follows the packet. -/
def Obligations.PacketRoundTrip : Prop :=
  ∀ (inp more : Bytes) (s t u : State),
    exec (.spEncode inp) s = .next t → t.status.code = .success → u.cfg = s.cfg →
    ∃ v, exec (.spDecode (t.out ++ more)) u = .next v ∧ v.status.code = .success
      ∧ v.hdr = t.hdr ∧ v.hdr = { s.hdr with pdl := t.hdr.pdl } ∧ v.out = inp
      ∧ v.consumed.toNat = t.out.length ∧ (s.crcEn = true → v.crcv = t.crcv)

/-- R165: after a successful SP_ENCODE the length field of OUT is the trailing byte count minus 1. -/
def Obligations.LengthFieldCorrect : Prop :=
  ∀ (inp : Bytes) (s t : State), exec (.spEncode inp) s = .next t → t.status.code = .success →
    7 ≤ t.out.length ∧ (be16 t.out 4).toNat = t.out.length - 7

/-- The first clauses of R166: with CRC_EN, one flipped bit anywhere but in the length field (header bytes 4 and 5) makes
SP_DECODE raise `ChecksumMismatch`, with what a failing SP_DECODE writes (R163). Why the length field is excluded whole
stands in log 18. -/
def Obligations.CrcCatchesSingleBitErrors : Prop :=
  ∀ (inp : Bytes) (s t u : State) (w : Nat),
    exec (.spEncode inp) s = .next t → t.status.code = .success → s.crcEn = true → u.crcEn = true →
    w < 8 * t.out.length → w / 8 ≠ 4 → w / 8 ≠ 5 →
    exec (.spDecode (flipBit w t.out)) u =
      .next { u with consumed := 0, status := { code := .checksumMismatch, corr := false }, out := [], evq := [] }

/-! ### BCH, CLTU and the randomizer -/

/-- R196: BCH_ENCODE_BLOCK on seven bytes, and on any other number. -/
def Obligations.BchEncodeBlockResult : Prop :=
  ∀ (inp : Bytes) (s : State),
    (inp.length = 7 →
        exec (.bchEncodeBlock inp) s =
          .next { s with out := bchEnc inp, status := { code := .success, corr := false }, evq := [] })
      ∧ (inp.length ≠ 7 →
        exec (.bchEncodeBlock inp) s =
          .next { s with out := [], status := { code := .illegalCommand, corr := false }, evq := [] })

/-- R190 to R192: the eighth byte of a codeblock holds the complement of the remainder of `m(x) x^7` by the generator in
bits 7 to 1 and 0 in bit 0; the generator is `(x + 1)(x^6 + x + 1)`. -/
def Obligations.BchParityIsRemainder : Prop :=
  bchGenerator = (Polynomial.X + 1) * (Polynomial.X ^ 6 + Polynomial.X + 1)
    ∧ ∀ d : Bytes, d.length = 7 → ∃ p : Byte, bchEnc d = d ++ [p] ∧ p.getLsbD 0 = false
        ∧ bitPoly 7 (fun i => !p.getLsbD (i + 1)) = (bytesPoly d * Polynomial.X ^ 7) %ₘ bchGenerator

/-- R197 with `bchDec` of R195: BCH_DECODE_BLOCK on eight bytes, and on any other number. -/
def Obligations.BchDecodeBlockResult : Prop :=
  ∀ (inp : Bytes) (s : State),
    (inp.length ≠ 8 →
        exec (.bchDecodeBlock inp) s =
          .next { s with out := [], status := { code := .illegalCommand, corr := false }, evq := [] })
      ∧ (inp.length = 8 → bchDec inp = none →
        exec (.bchDecodeBlock inp) s =
          .next { s with out := [], status := { code := .uncorrectableBlock, corr := false }, evq := [] })
      ∧ ∀ (d : Bytes) (k : Bool), inp.length = 8 → bchDec inp = some (d, k) →
          d.length = 7 ∧ exec (.bchDecodeBlock inp) s =
            .next { s with out := d, status := { code := .success, corr := k }, evq := [] }

/-- R194: every row of the printed table is the syndrome of its degree, a syndrome is in the table exactly when it has an odd
number of 1 bits and is not 0x43, no two rows agree, and a block whose syndrome is neither 0 nor in the table is
uncorrectable. -/
def Obligations.SyndromeTableIsExact : Prop :=
  (∀ i : Fin 63, syndromeTable[62 - i.val]? = some (bchRem (1#63 <<< i.val)))
    ∧ (∀ y : BitVec 7, y ∈ syndromeTable ↔
        ((List.range 7).filter (fun j => y.getLsbD j)).length % 2 = 1 ∧ y ≠ 0x43)
    ∧ syndromeTable.Nodup
    ∧ ∀ c : Bytes, c.length = 8 → syndrome c ≠ 0 → syndrome c ∉ syndromeTable → bchDec c = none

/-- R193: a codeblock has syndrome 0, an error in code bit of degree `i` gives `x^i mod g`, and the fill bit does not
count. -/
def Obligations.SyndromeOfErrors : Prop :=
  (∀ d : Bytes, d.length = 7 → syndrome (bchEnc d) = 0)
    ∧ (∀ (c : Bytes) (w : Nat), c.length = 8 → w < 63 →
        syndrome (flipBit w c) = syndrome c ^^^ bchRem (1#63 <<< (62 - w)))
    ∧ ∀ c : Bytes, c.length = 8 → syndrome (flipBit 63 c) = syndrome c

/-- R198: BCH_DECODE_BLOCK's function on codeblocks with no, one and two flipped bits, and the printed miscorrection. -/
def Obligations.BchCorrectsOneDetectsTwo : Prop :=
  (∀ d : Bytes, d.length = 7 →
      bchDec (bchEnc d) = some (d, false) ∧ bchDec (flipBit 63 (bchEnc d)) = some (d, false)
        ∧ (∀ w, w < 63 → bchDec (flipBit w (bchEnc d)) = some (d, true))
        ∧ ∀ v w, v < w → w < 63 → bchDec (flipBit v (flipBit w (bchEnc d))) = none)
    ∧ bchDec (flipBit 0 (flipBit 1 (flipBit 2 (bchEnc [0, 0, 0, 0, 0, 0, 0])))) =
        some ([0xE0, 0, 0, 0, 0x01, 0, 0], true)

/-- R202 with R200 and R201: CLTU_ENCODE's output is the start sequence, the codeblocks of the filled frame in order, and the
tail sequence; nothing but OUT, STATUS and EVQ is written. -/
def Obligations.CltuEncodeResult : Prop :=
  ∀ (inp : Bytes) (s : State),
    let frame := if s.cfg.getLsbD 1 then rand inp else inp
    let filled := frame ++ List.replicate ((7 - inp.length % 7) % 7) 0x55#8
    let n := (inp.length + 6) / 7
    ∃ o : Bytes, exec (.cltuEncode inp) s =
        .next { s with out := o, status := { code := .success, corr := false }, evq := [] }
      ∧ o.length = 2 + 8 * n + 8 ∧ o.take 2 = [0xEB, 0x90]
      ∧ o.drop (2 + 8 * n) = [0xC5, 0xC5, 0xC5, 0xC5, 0xC5, 0xC5, 0xC5, 0x79]
      ∧ ∀ k, k < n → (o.drop (2 + 8 * k)).take 8 = bchEnc ((filled.drop (7 * k)).take 7)

/-- R203: the host's decode path recovers the frame of a CLTU, even with one flipped bit in each codeblock. -/
def Obligations.CltuDecodePathRecoversFrame : Prop :=
  ∀ (frame : Bytes) (randEn : Bool) (e : Nat → Option (Fin 64)),
    let c := cltu frame randEn
    let n := (frame.length + 6) / 7
    hostCltuDecode frame.length randEn c = some frame
      ∧ hostCltuDecode frame.length randEn
          (c.take 2 ++ flipOnePerBlock e 0 n ((c.drop 2).take (8 * n)) ++ c.drop (2 + 8 * n)) = some frame

/-- R206 with R204 and R205: RANDOMIZE XORs bit `b` of byte `j`, counted from the most significant, with `a(8j + b)`. -/
def Obligations.RandomizeResult : Prop :=
  ∀ (inp : Bytes) (s : State), ∃ o : Bytes,
    exec (.randomize inp) s =
        .next { s with out := o, status := { code := .success, corr := false }, evq := [] }
      ∧ o.length = inp.length
      ∧ ∀ j b, j < inp.length → b < 8 →
          (byteAt o j).getLsbD (7 - b) = ((byteAt inp j).getLsbD (7 - b) ^^ prnBit (8 * j + b))

/-- R207: RANDOMIZE of a RANDOMIZE output gives the original, for every length. -/
def Obligations.RandomizeInvolution : Prop :=
  ∀ (inp : Bytes) (s t : State), exec (.randomize inp) s = .next t →
    ∃ u, exec (.randomize t.out) t = .next u ∧ u.out = inp ∧ u.status.code = .success

/-- R204, R205: the bit sequence repeats every 255 bits and the byte sequence every 255 bytes, and no smaller number of bits
is a period. -/
def Obligations.PrnPeriod : Prop :=
  (∀ n, prnBit (n + 255) = prnBit n) ∧ (∀ p, 0 < p → p < 255 → ∃ n, prnBit (n + p) ≠ prnBit n)
    ∧ ∀ n, prn (255 + n) = prn 255 ++ prn n

/-! ### The stream framer -/

/-- R236: FRAMER_PUSH of any chunk completes with CODE 0 and OUT empty, writes nothing but the framer, EVQ, OUT and STATUS,
and an empty chunk changes no framer state and gives no event. -/
def Obligations.FramerPushCompletes : Prop :=
  ∀ (inp : Bytes) (s : State), ∃ t, exec (.framerPush inp) s = .next t
    ∧ t.status = { code := .success, corr := false } ∧ t.out = [] ∧ sameSetup s t
    ∧ t.hdr = s.hdr ∧ t.crcv = s.crcv ∧ t.consumed = s.consumed
    ∧ (inp = [] → sameFramer s t ∧ t.evq = [])

/-- R234: one byte in Searching. -/
def Obligations.SearchingByte : Prop :=
  ∀ (s : State) (b : Byte) (m : Bytes), s.fmode = .searching → s.syncMarker = some m →
    let done : Status := { code := .success, corr := false }
    let w := s.fwin ++ [b]
    (w = m →
        exec (.framerPush [b]) s =
          .next { s with fskip := 0, fwin := [], fbuf := [], fmode := .accumulating, status := done, out := []
                         evq := if s.fskip = 0 then [] else [.skipped s.fskip] })
      ∧ (w ≠ m → w.length = m.length →
        exec (.framerPush [b]) s =
          .next { s with fskip := BitVec.ofNat 32 (min (s.fskip.toNat + 1) (2 ^ 32 - 1)), fwin := w.drop 1
                         status := done, out := [], evq := [] })
      ∧ (w ≠ m → w.length ≠ m.length →
        exec (.framerPush [b]) s = .next { s with fwin := w, status := done, out := [], evq := [] })

/-- R235, R237, R238: one byte in Accumulating: kept, overflowing, or completing a unit that decodes or fails. -/
def Obligations.AccumulatingByte : Prop :=
  ∀ (s : State) (b : Byte), s.fmode = .accumulating →
    let done : Status := { code := .success, corr := false }
    let u := s.fbuf ++ [b]
    let full := 6 ≤ u.length ∧ u.length = 6 + (be16 u 4).toNat + 1
    let home : FramerMode := if s.cfg.getLsbD 2 then .searching else .accumulating
    (s.maxbuf.toNat < u.length →
        exec (.framerPush [b]) s =
          .next { s with fbuf := [], fmode := home, status := done, out := [], evq := [.unitError .frameTooLarge] })
      ∧ (u.length ≤ s.maxbuf.toNat → ¬full →
        exec (.framerPush [b]) s = .next { s with fbuf := u, status := done, out := [], evq := [] })
      ∧ (∀ (p : Packet) (used : Nat), u.length ≤ s.maxbuf.toNat → full → spDecode u s.crcEn = .ok (p, used) →
          used = u.length ∧ exec (.framerPush [b]) s =
            .next { s with fbuf := [], status := done, out := [], evq := [.packet p]
                           fmode := if s.params.rearm = .search then home else .accumulating })
      ∧ ∀ c : Code, u.length ≤ s.maxbuf.toNat → full → spDecode u s.crcEn = .error c →
          (c = .truncatedPacket ∧ s.crcEn = true ∧ be16 u 4 = 0 ∨ c = .checksumMismatch ∧ s.crcEn = true)
            ∧ exec (.framerPush [b]) s =
            .next { s with fbuf := [], fmode := home, status := done, out := [], evq := [.unitError c] }

/-- R241: pushing a chunk in two pieces leaves the same state as pushing it whole, and the events are the same in the same
order. -/
def Obligations.ChunkIndependence : Prop :=
  ∀ (a b : Bytes) (s t u : State), exec (.framerPush a) s = .next t → exec (.framerPush b) t = .next u →
    exec (.framerPush (a ++ b)) s = .next { u with evq := t.evq ++ u.evq }

/-- R240: FRAMER_RESET with the empty operand, and with any other. -/
def Obligations.FramerResetResult : Prop :=
  ∀ (inp : Bytes) (s : State),
    (inp = [] →
        exec (.framerReset inp) s =
          .next { s with fbuf := [], fwin := [], fskip := 0, out := [], evq := []
                         status := { code := .success, corr := false }
                         fmode := if s.cfg.getLsbD 2 then .searching else .accumulating })
      ∧ (inp ≠ [] →
        exec (.framerReset inp) s =
          .next { s with status := { code := .illegalCommand, corr := false }, out := [], evq := [] })

/-- R242: after every command the framer is within its bounds. -/
def Obligations.FramerBounds : Prop :=
  ∀ (i : Instr) (s t : State), s.Inv → exec i s = .next t →
    (∀ m, t.syncMarker = some m → t.fmode = .searching → t.fwin.length ≤ m.length - 1)
      ∧ t.fbuf.length ≤ t.maxbuf.toNat ∧ (t.fmode = .searching → t.fbuf = []) ∧ (t.fmode = .accumulating → t.fwin = [])
      ∧ t.fbuf.length + t.fwin.length ≤ max t.maxbuf.toNat 7

/-- R239: a unit longer than MAXBUF is given up at byte MAXBUF + 1 with `FrameTooLarge` and every byte held is discarded; with
MAXBUF below 6 no unit ever completes. -/
def Obligations.OverflowDiscardsUnit : Prop :=
  (∀ (s t : State) (u : Bytes), s.fmode = .accumulating → s.fbuf = [] → u.length = s.maxbuf.toNat + 1 →
      (6 ≤ u.length → s.maxbuf.toNat < 6 + (be16 u 4).toNat + 1) → exec (.framerPush u) s = .next t →
      t.evq = [.unitError .frameTooLarge] ∧ t.fbuf = []
        ∧ t.fmode = if s.cfg.getLsbD 2 then .searching else .accumulating)
    ∧ ∀ (s t : State) (inp : Bytes), s.maxbuf.toNat < 6 → exec (.framerPush inp) s = .next t →
        ∀ p, Event.packet p ∉ t.evq

/-- The stream of R243 under `FRAMER_REARM = accumulate`: garbage, the marker once, then packets back to back. The skip
count saturates as R37 says, where R243 gives `Skipped(N)` for every N (log 18). -/
def Obligations.GarbageThenPacketsAccumulate : Prop :=
  ∀ (s t : State) (m g : Bytes) (ps : List Bytes) (ks : List Packet),
    s.syncMarker = some m → m ≠ [] → s.params.rearm = .accumulate →
    s.fmode = .searching → s.fwin = [] → s.fskip = 0 →
    (∀ i, i < g.length → ((g ++ m).drop i).take m.length ≠ m) →
    List.Forall₂ (fun p k => validPacket s.crcEn p k ∧ p.length ≤ s.maxbuf.toNat) ps ks →
    exec (.framerPush (g ++ m ++ ps.flatten)) s = .next t →
    t.evq = skipEvents g.length ++ ks.map .packet ∧ t.fmode = .accumulating ∧ t.fbuf = []

/-- The stream of R243 under `FRAMER_REARM = search`: garbage, then every packet after its own marker. The skip count
saturates as R37 says; R243's stream with one marker only is left out (both: log 18). -/
def Obligations.GarbageThenMarkedPacketsSearch : Prop :=
  ∀ (s t : State) (m g p : Bytes) (k : Packet) (ps : List Bytes) (ks : List Packet),
    s.syncMarker = some m → m ≠ [] → s.params.rearm = .search →
    s.fmode = .searching → s.fwin = [] → s.fskip = 0 →
    (∀ i, i < g.length → ((g ++ m).drop i).take m.length ≠ m) →
    List.Forall₂ (fun q j => validPacket s.crcEn q j ∧ q.length ≤ s.maxbuf.toNat) (p :: ps) (k :: ks) →
    exec (.framerPush (g ++ markedStream m (p :: ps))) s = .next t →
    t.evq = skipEvents g.length ++ (k :: ks).map .packet ∧ t.fmode = .searching ∧ t.fwin = [] ∧ t.fskip = 0

/-- R87: the actions of SET_SYNC configure the marker it names and keep CRC_EN and RAND_EN; CLR_SYNC leaves none. -/
def Obligations.SetSyncConfiguresMarker : Prop :=
  (∀ (s : State) (m : Bytes) (acts : List HostAction), setSync s m = some acts →
      ∃ t, Host.Core.run Sys2Proof.core 3 { s with pending := acts } = .next t ∧ t.syncMarker = some m
        ∧ t.crcEn = s.crcEn ∧ t.randEn = s.randEn ∧ t.pending = [] ∧ t.status = s.status)
    ∧ ∀ s : State, ∃ t, Host.Core.run Sys2Proof.core 1 { s with pending := clrSync s } = .next t
        ∧ t.syncMarker = none ∧ t.crcEn = s.crcEn ∧ t.randEn = s.randEn ∧ t.status = s.status

/-- R86, R87: a mnemonic with an operand is the command word of the opcode map followed by the operand bytes, and the two
second names are the words of RANDOMIZE and CRC_VERIFY. -/
def Obligations.AssemblyNamesCommands : Prop :=
  ∀ (s : State) (ps : List OperandPiece),
    (∀ i : Instr, i.operand = operandBytes ps → assemble s (.command (mnemonicOf i) ps) = some [.cmd ⟨i.word, operandBytes ps⟩])
      ∧ assemble s (.command "DERANDOMIZE" ps) = some [.cmd ⟨0x00000033, operandBytes ps⟩]
      ∧ assemble s (.command "CRC_CHECK" ps) = some [.cmd ⟨0x00000002, operandBytes ps⟩]

/-! ### The whole machine -/

/-- The invariant holds right after reset. -/
def Obligations.InvariantAtReset : Prop := State.reset.Inv

/-- Every step keeps the invariant, from every state that meets it. -/
def Obligations.StepKeepsInvariant : Prop := ∀ s t : State, s.Inv → step s = .next t → t.Inv

/-- R274: the codes each command can end with. -/
def Obligations.CommandEndCodes : Prop :=
  ∀ (i : Instr) (s t : State), exec i s = .next t → t.status.code ∈ endCodes i

/-- R273: a failing command writes STATUS, OUT, EVQ, CONSUMED for the decode commands, CRCV for CRC_VERIFY with two bytes or
more, and nothing else. A command word rejected for its operand's length is not executed (log 19). -/
def Obligations.FailingCommandWrites : Prop :=
  ∀ (i : Instr) (s t : State), exec i s = .next t → t.status.code ≠ .success →
    t = { s with status := { code := t.status.code, corr := false }, out := [], evq := []
                 consumed := match i with
                   | .phDecode _ => 0
                   | .spDecode _ => 0
                   | _ => s.consumed
                 crcv := match i with
                   | .crcVerify inp => if 2 ≤ inp.length then crc16 (inp.take (inp.length - 2)) else s.crcv
                   | _ => s.crcv }

/-- The column "written by commands" of R23: no command writes CFG, SYNC0, SYNC1, MAXBUF or SHLEN. That none writes the
fields the model adds to State is the model's choice (logs 1 to 3). -/
def Obligations.CommandsKeepSetup : Prop :=
  ∀ (i : Instr) (s t : State), exec i s = .next t → sameSetup s t

/-- R32 and R33: which commands leave CRCV and CONSUMED as they are. -/
def Obligations.ResultRegistersFrame : Prop :=
  ∀ (i : Instr) (s t : State), exec i s = .next t →
    ((∀ inp, i ≠ .phDecode inp) → (∀ inp, i ≠ .spDecode inp) → t.consumed = s.consumed)
      ∧ ((∀ inp, i ≠ .crcCompute inp) → (∀ inp, i ≠ .crcVerify inp) →
          ((∀ inp, i ≠ .spEncode inp) ∧ (∀ inp, i ≠ .spDecode inp) ∨ s.crcEn = false) → t.crcv = s.crcv)

/-- R38: EVQ is empty after every command but FRAMER_PUSH; OUT is empty after a command that fails or has no byte result. -/
def Obligations.ResultBuffersRewritten : Prop :=
  ∀ (i : Instr) (s t : State), exec i s = .next t →
    ((∀ inp, i ≠ .framerPush inp) → t.evq = [])
      ∧ (t.status.code ≠ .success → t.out = [] ∧ t.evq = [])
      ∧ ((∃ inp, i = .crcVerify inp ∨ i = .phDecode inp ∨ i = .framerPush inp ∨ i = .framerReset inp) → t.out = [])

/-- The column "written by commands" of R23, with R237 for the framer: codec commands leave the framer alone, and framer
commands leave the codec's registers alone. -/
def Obligations.CodecAndFramerApart : Prop :=
  ∀ (i : Instr) (s t : State), exec i s = .next t →
    (isFramerCommand i = false → sameFramer s t)
      ∧ (isFramerCommand i = true → t.hdr = s.hdr ∧ t.crcv = s.crcv ∧ t.consumed = s.consumed)

/-- R283: the result of a codec command depends on its operand and the registers its rule names only. The result is OUT,
STATUS and EVQ, and every result and field register the command writes (R20, R23). -/
def Obligations.CodecResultIsFunctional : Prop :=
  ∀ (i : Instr) (s t s' t' : State), isFramerCommand i = false → readsSame i s t →
    exec i s = .next s' → exec i t = .next t' →
    t'.out = s'.out ∧ t'.status = s'.status ∧ t'.evq = s'.evq ∧ sameWritten i s' t'

/-- The OPEN parameters are fixed for the machine: no step changes them (R20; the model's fields, log 2). -/
def Obligations.OpenParametersFixed : Prop := ∀ s t : State, step s = .next t → t.params = s.params
end

