-- ==== Sys2Proof/Laws/State.lean ====
section
/-! SUPPORT. One lemma per field per shared update of State, so that no proof unfolds a record update. -/

namespace Sys2Proof.Machine

@[simp] theorem Status.done_code (k : Bool) : (Status.done k).code = .success := rfl
@[simp] theorem Status.done_corr (k : Bool) : (Status.done k).corr = k := rfl
@[simp] theorem Status.failed_code (e : Code) : (Status.failed e).code = e := rfl
@[simp] theorem Status.failed_corr (e : Code) : (Status.failed e).corr = false := rfl

@[simp] theorem consts_hdrLen : consts.hdrLen = 6 := rfl
@[simp] theorem consts_maxTrailing : consts.maxTrailing = 65536 := rfl
@[simp] theorem consts_crcLen : consts.crcLen = 2 := rfl
@[simp] theorem consts_crc_poly : consts.crc.poly = 0x1021#16 := rfl
@[simp] theorem consts_crc_init : consts.crc.init = 0xFFFF#16 := rfl
@[simp] theorem consts_crc_reflect : consts.crc.reflect = false := rfl
@[simp] theorem consts_crc_xorOut : consts.crc.xorOut = 0#16 := rfl
@[simp] theorem consts_bchData : consts.bchData = 7 := rfl
@[simp] theorem consts_bchBlock : consts.bchBlock = 8 := rfl
@[simp] theorem consts_bch_gen : consts.bch.gen = 0xC5#8 := rfl
@[simp] theorem consts_bch_complement : consts.bch.complement = true := rfl
@[simp] theorem consts_bch_fillBit : consts.bch.fillBit = false := rfl
@[simp] theorem consts_cltuFill : consts.cltuFill = 0x55#8 := rfl
@[simp] theorem consts_cltuStart : consts.cltuStart = [0xEB#8, 0x90#8] := rfl
@[simp] theorem consts_cltuTail :
    consts.cltuTail = [0xC5#8, 0xC5#8, 0xC5#8, 0xC5#8, 0xC5#8, 0xC5#8, 0xC5#8, 0x79#8] := rfl
@[simp] theorem consts_prn_taps : consts.prn.taps = 0x5F#8 := rfl
@[simp] theorem consts_prn_seed : consts.prn.seed = 0xFF#8 := rfl
@[simp] theorem consts_syncMaxLen : consts.syncMaxLen = 8 := rfl
@[simp] theorem consts_maxbufReset : consts.maxbufReset = 65542#32 := rfl
@[simp] theorem consts_skipMax : consts.skipMax = 0xFFFFFFFF#32 := rfl

@[simp] theorem finishWith_cfg (o : Bytes) (k : Bool) (s : State) : (finishWith o k s).cfg = s.cfg := rfl
@[simp] theorem finishWith_sync0 (o : Bytes) (k : Bool) (s : State) : (finishWith o k s).sync0 = s.sync0 := rfl
@[simp] theorem finishWith_sync1 (o : Bytes) (k : Bool) (s : State) : (finishWith o k s).sync1 = s.sync1 := rfl
@[simp] theorem finishWith_maxbuf (o : Bytes) (k : Bool) (s : State) : (finishWith o k s).maxbuf = s.maxbuf := rfl
@[simp] theorem finishWith_hdr (o : Bytes) (k : Bool) (s : State) : (finishWith o k s).hdr = s.hdr := rfl
@[simp] theorem finishWith_shlen (o : Bytes) (k : Bool) (s : State) : (finishWith o k s).shlen = s.shlen := rfl
@[simp] theorem finishWith_crcv (o : Bytes) (k : Bool) (s : State) : (finishWith o k s).crcv = s.crcv := rfl
@[simp] theorem finishWith_status (o : Bytes) (k : Bool) (s : State) : (finishWith o k s).status = .done k := rfl
@[simp] theorem finishWith_consumed (o : Bytes) (k : Bool) (s : State) : (finishWith o k s).consumed = s.consumed := rfl
@[simp] theorem finishWith_fmode (o : Bytes) (k : Bool) (s : State) : (finishWith o k s).fmode = s.fmode := rfl
@[simp] theorem finishWith_fskip (o : Bytes) (k : Bool) (s : State) : (finishWith o k s).fskip = s.fskip := rfl
@[simp] theorem finishWith_fbuf (o : Bytes) (k : Bool) (s : State) : (finishWith o k s).fbuf = s.fbuf := rfl
@[simp] theorem finishWith_fwin (o : Bytes) (k : Bool) (s : State) : (finishWith o k s).fwin = s.fwin := rfl
@[simp] theorem finishWith_out (o : Bytes) (k : Bool) (s : State) : (finishWith o k s).out = o := rfl
@[simp] theorem finishWith_evq (o : Bytes) (k : Bool) (s : State) : (finishWith o k s).evq = [] := rfl
@[simp] theorem finishWith_params (o : Bytes) (k : Bool) (s : State) : (finishWith o k s).params = s.params := rfl
@[simp] theorem finishWith_pending (o : Bytes) (k : Bool) (s : State) : (finishWith o k s).pending = s.pending := rfl
@[simp] theorem finishWith_rdValue (o : Bytes) (k : Bool) (s : State) : (finishWith o k s).rdValue = s.rdValue := rfl

@[simp] theorem finish_cfg (o : Bytes) (s : State) : (finish o s).cfg = s.cfg := rfl
@[simp] theorem finish_sync0 (o : Bytes) (s : State) : (finish o s).sync0 = s.sync0 := rfl
@[simp] theorem finish_sync1 (o : Bytes) (s : State) : (finish o s).sync1 = s.sync1 := rfl
@[simp] theorem finish_maxbuf (o : Bytes) (s : State) : (finish o s).maxbuf = s.maxbuf := rfl
@[simp] theorem finish_hdr (o : Bytes) (s : State) : (finish o s).hdr = s.hdr := rfl
@[simp] theorem finish_shlen (o : Bytes) (s : State) : (finish o s).shlen = s.shlen := rfl
@[simp] theorem finish_crcv (o : Bytes) (s : State) : (finish o s).crcv = s.crcv := rfl
@[simp] theorem finish_status (o : Bytes) (s : State) : (finish o s).status = .done false := rfl
@[simp] theorem finish_consumed (o : Bytes) (s : State) : (finish o s).consumed = s.consumed := rfl
@[simp] theorem finish_fmode (o : Bytes) (s : State) : (finish o s).fmode = s.fmode := rfl
@[simp] theorem finish_fskip (o : Bytes) (s : State) : (finish o s).fskip = s.fskip := rfl
@[simp] theorem finish_fbuf (o : Bytes) (s : State) : (finish o s).fbuf = s.fbuf := rfl
@[simp] theorem finish_fwin (o : Bytes) (s : State) : (finish o s).fwin = s.fwin := rfl
@[simp] theorem finish_out (o : Bytes) (s : State) : (finish o s).out = o := rfl
@[simp] theorem finish_evq (o : Bytes) (s : State) : (finish o s).evq = [] := rfl
@[simp] theorem finish_params (o : Bytes) (s : State) : (finish o s).params = s.params := rfl
@[simp] theorem finish_pending (o : Bytes) (s : State) : (finish o s).pending = s.pending := rfl
@[simp] theorem finish_rdValue (o : Bytes) (s : State) : (finish o s).rdValue = s.rdValue := rfl

@[simp] theorem raise_cfg (e : Code) (s : State) : (raise e s).cfg = s.cfg := rfl
@[simp] theorem raise_sync0 (e : Code) (s : State) : (raise e s).sync0 = s.sync0 := rfl
@[simp] theorem raise_sync1 (e : Code) (s : State) : (raise e s).sync1 = s.sync1 := rfl
@[simp] theorem raise_maxbuf (e : Code) (s : State) : (raise e s).maxbuf = s.maxbuf := rfl
@[simp] theorem raise_hdr (e : Code) (s : State) : (raise e s).hdr = s.hdr := rfl
@[simp] theorem raise_shlen (e : Code) (s : State) : (raise e s).shlen = s.shlen := rfl
@[simp] theorem raise_crcv (e : Code) (s : State) : (raise e s).crcv = s.crcv := rfl
@[simp] theorem raise_status (e : Code) (s : State) : (raise e s).status = .failed e := rfl
@[simp] theorem raise_consumed (e : Code) (s : State) : (raise e s).consumed = s.consumed := rfl
@[simp] theorem raise_fmode (e : Code) (s : State) : (raise e s).fmode = s.fmode := rfl
@[simp] theorem raise_fskip (e : Code) (s : State) : (raise e s).fskip = s.fskip := rfl
@[simp] theorem raise_fbuf (e : Code) (s : State) : (raise e s).fbuf = s.fbuf := rfl
@[simp] theorem raise_fwin (e : Code) (s : State) : (raise e s).fwin = s.fwin := rfl
@[simp] theorem raise_out (e : Code) (s : State) : (raise e s).out = [] := rfl
@[simp] theorem raise_evq (e : Code) (s : State) : (raise e s).evq = [] := rfl
@[simp] theorem raise_params (e : Code) (s : State) : (raise e s).params = s.params := rfl
@[simp] theorem raise_pending (e : Code) (s : State) : (raise e s).pending = s.pending := rfl
@[simp] theorem raise_rdValue (e : Code) (s : State) : (raise e s).rdValue = s.rdValue := rfl

@[simp] theorem raiseDecode_cfg (e : Code) (s : State) : (raiseDecode e s).cfg = s.cfg := rfl
@[simp] theorem raiseDecode_sync0 (e : Code) (s : State) : (raiseDecode e s).sync0 = s.sync0 := rfl
@[simp] theorem raiseDecode_sync1 (e : Code) (s : State) : (raiseDecode e s).sync1 = s.sync1 := rfl
@[simp] theorem raiseDecode_maxbuf (e : Code) (s : State) : (raiseDecode e s).maxbuf = s.maxbuf := rfl
@[simp] theorem raiseDecode_hdr (e : Code) (s : State) : (raiseDecode e s).hdr = s.hdr := rfl
@[simp] theorem raiseDecode_shlen (e : Code) (s : State) : (raiseDecode e s).shlen = s.shlen := rfl
@[simp] theorem raiseDecode_crcv (e : Code) (s : State) : (raiseDecode e s).crcv = s.crcv := rfl
@[simp] theorem raiseDecode_status (e : Code) (s : State) : (raiseDecode e s).status = .failed e := rfl
@[simp] theorem raiseDecode_consumed (e : Code) (s : State) : (raiseDecode e s).consumed = 0 := rfl
@[simp] theorem raiseDecode_fmode (e : Code) (s : State) : (raiseDecode e s).fmode = s.fmode := rfl
@[simp] theorem raiseDecode_fskip (e : Code) (s : State) : (raiseDecode e s).fskip = s.fskip := rfl
@[simp] theorem raiseDecode_fbuf (e : Code) (s : State) : (raiseDecode e s).fbuf = s.fbuf := rfl
@[simp] theorem raiseDecode_fwin (e : Code) (s : State) : (raiseDecode e s).fwin = s.fwin := rfl
@[simp] theorem raiseDecode_out (e : Code) (s : State) : (raiseDecode e s).out = [] := rfl
@[simp] theorem raiseDecode_evq (e : Code) (s : State) : (raiseDecode e s).evq = [] := rfl
@[simp] theorem raiseDecode_params (e : Code) (s : State) : (raiseDecode e s).params = s.params := rfl
@[simp] theorem raiseDecode_pending (e : Code) (s : State) : (raiseDecode e s).pending = s.pending := rfl
@[simp] theorem raiseDecode_rdValue (e : Code) (s : State) : (raiseDecode e s).rdValue = s.rdValue := rfl

@[simp] theorem rejectWrite_cfg (s : State) : (rejectWrite s).cfg = s.cfg := rfl
@[simp] theorem rejectWrite_sync0 (s : State) : (rejectWrite s).sync0 = s.sync0 := rfl
@[simp] theorem rejectWrite_sync1 (s : State) : (rejectWrite s).sync1 = s.sync1 := rfl
@[simp] theorem rejectWrite_maxbuf (s : State) : (rejectWrite s).maxbuf = s.maxbuf := rfl
@[simp] theorem rejectWrite_hdr (s : State) : (rejectWrite s).hdr = s.hdr := rfl
@[simp] theorem rejectWrite_shlen (s : State) : (rejectWrite s).shlen = s.shlen := rfl
@[simp] theorem rejectWrite_crcv (s : State) : (rejectWrite s).crcv = s.crcv := rfl
@[simp] theorem rejectWrite_status (s : State) : (rejectWrite s).status = .failed .illegalCommand := rfl
@[simp] theorem rejectWrite_consumed (s : State) : (rejectWrite s).consumed = s.consumed := rfl
@[simp] theorem rejectWrite_fmode (s : State) : (rejectWrite s).fmode = s.fmode := rfl
@[simp] theorem rejectWrite_fskip (s : State) : (rejectWrite s).fskip = s.fskip := rfl
@[simp] theorem rejectWrite_fbuf (s : State) : (rejectWrite s).fbuf = s.fbuf := rfl
@[simp] theorem rejectWrite_fwin (s : State) : (rejectWrite s).fwin = s.fwin := rfl
@[simp] theorem rejectWrite_out (s : State) : (rejectWrite s).out = s.out := rfl
@[simp] theorem rejectWrite_evq (s : State) : (rejectWrite s).evq = s.evq := rfl
@[simp] theorem rejectWrite_params (s : State) : (rejectWrite s).params = s.params := rfl
@[simp] theorem rejectWrite_pending (s : State) : (rejectWrite s).pending = s.pending := rfl
@[simp] theorem rejectWrite_rdValue (s : State) : (rejectWrite s).rdValue = s.rdValue := rfl

@[simp] theorem framerClear_cfg (s : State) : (framerClear s).cfg = s.cfg := rfl
@[simp] theorem framerClear_sync0 (s : State) : (framerClear s).sync0 = s.sync0 := rfl
@[simp] theorem framerClear_sync1 (s : State) : (framerClear s).sync1 = s.sync1 := rfl
@[simp] theorem framerClear_maxbuf (s : State) : (framerClear s).maxbuf = s.maxbuf := rfl
@[simp] theorem framerClear_hdr (s : State) : (framerClear s).hdr = s.hdr := rfl
@[simp] theorem framerClear_shlen (s : State) : (framerClear s).shlen = s.shlen := rfl
@[simp] theorem framerClear_crcv (s : State) : (framerClear s).crcv = s.crcv := rfl
@[simp] theorem framerClear_status (s : State) : (framerClear s).status = s.status := rfl
@[simp] theorem framerClear_consumed (s : State) : (framerClear s).consumed = s.consumed := rfl
@[simp] theorem framerClear_fmode (s : State) : (framerClear s).fmode = s.home := rfl
@[simp] theorem framerClear_fskip (s : State) : (framerClear s).fskip = 0 := rfl
@[simp] theorem framerClear_fbuf (s : State) : (framerClear s).fbuf = [] := rfl
@[simp] theorem framerClear_fwin (s : State) : (framerClear s).fwin = [] := rfl
@[simp] theorem framerClear_out (s : State) : (framerClear s).out = s.out := rfl
@[simp] theorem framerClear_evq (s : State) : (framerClear s).evq = s.evq := rfl
@[simp] theorem framerClear_params (s : State) : (framerClear s).params = s.params := rfl
@[simp] theorem framerClear_pending (s : State) : (framerClear s).pending = s.pending := rfl
@[simp] theorem framerClear_rdValue (s : State) : (framerClear s).rdValue = s.rdValue := rfl

@[simp] theorem emit_cfg (e : Event) (s : State) : (emit e s).cfg = s.cfg := rfl
@[simp] theorem emit_sync0 (e : Event) (s : State) : (emit e s).sync0 = s.sync0 := rfl
@[simp] theorem emit_sync1 (e : Event) (s : State) : (emit e s).sync1 = s.sync1 := rfl
@[simp] theorem emit_maxbuf (e : Event) (s : State) : (emit e s).maxbuf = s.maxbuf := rfl
@[simp] theorem emit_hdr (e : Event) (s : State) : (emit e s).hdr = s.hdr := rfl
@[simp] theorem emit_shlen (e : Event) (s : State) : (emit e s).shlen = s.shlen := rfl
@[simp] theorem emit_crcv (e : Event) (s : State) : (emit e s).crcv = s.crcv := rfl
@[simp] theorem emit_status (e : Event) (s : State) : (emit e s).status = s.status := rfl
@[simp] theorem emit_consumed (e : Event) (s : State) : (emit e s).consumed = s.consumed := rfl
@[simp] theorem emit_fmode (e : Event) (s : State) : (emit e s).fmode = s.fmode := rfl
@[simp] theorem emit_fskip (e : Event) (s : State) : (emit e s).fskip = s.fskip := rfl
@[simp] theorem emit_fbuf (e : Event) (s : State) : (emit e s).fbuf = s.fbuf := rfl
@[simp] theorem emit_fwin (e : Event) (s : State) : (emit e s).fwin = s.fwin := rfl
@[simp] theorem emit_out (e : Event) (s : State) : (emit e s).out = s.out := rfl
@[simp] theorem emit_evq (e : Event) (s : State) : (emit e s).evq = s.evq ++ [e] := rfl
@[simp] theorem emit_params (e : Event) (s : State) : (emit e s).params = s.params := rfl
@[simp] theorem emit_pending (e : Event) (s : State) : (emit e s).pending = s.pending := rfl
@[simp] theorem emit_rdValue (e : Event) (s : State) : (emit e s).rdValue = s.rdValue := rfl

@[simp] theorem hostReset_cfg (s : State) : (hostReset s).cfg = State.reset.cfg := rfl
@[simp] theorem hostReset_sync0 (s : State) : (hostReset s).sync0 = State.reset.sync0 := rfl
@[simp] theorem hostReset_sync1 (s : State) : (hostReset s).sync1 = State.reset.sync1 := rfl
@[simp] theorem hostReset_maxbuf (s : State) : (hostReset s).maxbuf = State.reset.maxbuf := rfl
@[simp] theorem hostReset_hdr (s : State) : (hostReset s).hdr = State.reset.hdr := rfl
@[simp] theorem hostReset_shlen (s : State) : (hostReset s).shlen = State.reset.shlen := rfl
@[simp] theorem hostReset_crcv (s : State) : (hostReset s).crcv = State.reset.crcv := rfl
@[simp] theorem hostReset_status (s : State) : (hostReset s).status = State.reset.status := rfl
@[simp] theorem hostReset_consumed (s : State) : (hostReset s).consumed = State.reset.consumed := rfl
@[simp] theorem hostReset_fmode (s : State) : (hostReset s).fmode = State.reset.fmode := rfl
@[simp] theorem hostReset_fskip (s : State) : (hostReset s).fskip = State.reset.fskip := rfl
@[simp] theorem hostReset_fbuf (s : State) : (hostReset s).fbuf = State.reset.fbuf := rfl
@[simp] theorem hostReset_fwin (s : State) : (hostReset s).fwin = State.reset.fwin := rfl
@[simp] theorem hostReset_out (s : State) : (hostReset s).out = State.reset.out := rfl
@[simp] theorem hostReset_evq (s : State) : (hostReset s).evq = State.reset.evq := rfl
@[simp] theorem hostReset_params (s : State) : (hostReset s).params = s.params := rfl
@[simp] theorem hostReset_pending (s : State) : (hostReset s).pending = s.pending := rfl
@[simp] theorem hostReset_rdValue (s : State) : (hostReset s).rdValue = s.rdValue := rfl

end Sys2Proof.Machine
end

