-- ==== Sys2Proof/Laws/Bytes.lean ====
section
/-! SUPPORT. Operand reads and big-endian words: lengths, and reading back what was written. -/

namespace Sys2Proof.Machine

theorem memRead_length (inp : Bytes) (a n : Nat) : (memRead inp a n).length = min n (inp.length - a) := by
  simp [memRead]

theorem memRead_prefix (u v : Bytes) : memRead (u ++ v) 0 u.length = u := by simp [memRead]

theorem memRead_after (u v w : Bytes) : memRead (u ++ (v ++ w)) u.length v.length = v := by simp [memRead]

/-- The two parts SP_ENCODE splits its operand into are the operand (42_space_packet.md R161). -/
theorem memRead_split (inp : Bytes) (k : Nat) : memRead inp 0 k ++ memRead inp k (inp.length - k) = inp := by
  simp [memRead, List.take_of_length_le]

theorem byteAt_append_left (u v : Bytes) (i : Nat) (h : i < u.length) : byteAt (u ++ v) i = byteAt u i := by
  simp [byteAt, List.getD_eq_getElem?_getD, List.getElem?_append_left h]

theorem byteAt_append_right (u v : Bytes) (i : Nat) : byteAt (u ++ v) (u.length + i) = byteAt v i := by
  simp only [byteAt, List.getD_eq_getElem?_getD]
  rw [List.getElem?_append_right (Nat.le_add_right _ _), Nat.add_sub_cancel_left]

@[simp] theorem bytes16_length (v : Half) : (bytes16 v).length = 2 := rfl

@[simp] theorem be16_bytes16 (v : Half) : be16 (bytes16 v) 0 = v := by
  show v.extractLsb' 8 8 ++ v.extractLsb' 0 8 = v
  apply BitVec.eq_of_getLsbD_eq
  intro i hi
  rw [BitVec.getLsbD_append]
  split <;> rename_i h8
  · simp [h8]
  · have e : 8 + (i - 8) = i := by omega
    have h16 : i - 8 < 8 := by omega
    simp [h16, e]

@[simp] theorem be16_append_right (u v : Bytes) (i : Nat) : be16 (u ++ v) (u.length + i) = be16 v i := by
  unfold be16
  rw [Nat.add_assoc, byteAt_append_right, byteAt_append_right]

theorem be16_append_left (u v : Bytes) (i : Nat) (h : i + 1 < u.length) : be16 (u ++ v) i = be16 u i := by
  unfold be16
  rw [byteAt_append_left u v i (by omega), byteAt_append_left u v (i + 1) h]

@[simp] theorem natBytes_length (n v : Nat) : (natBytes n v).length = n := by
  induction n with
  | zero => rfl
  | succ n ih => simp [natBytes, ih]

theorem beNat_foldl (s : Bytes) (acc : Nat) :
    s.foldl (fun a b => a * 256 + b.toNat) acc = acc * 256 ^ s.length + beNat s := by
  induction s generalizing acc with
  | nil => simp [beNat]
  | cons b s ih =>
    have e : beNat (b :: s) = (0 * 256 + b.toNat) * 256 ^ s.length + beNat s := by
      rw [beNat, List.foldl_cons, ih]
    rw [List.foldl_cons, ih, e, List.length_cons, pow_succ]
    ring

theorem beNat_cons (b : Byte) (s : Bytes) : beNat (b :: s) = b.toNat * 256 ^ s.length + beNat s := by
  rw [beNat, List.foldl_cons, beNat_foldl]
  simp

theorem beNat_lt (s : Bytes) : beNat s < 256 ^ s.length := by
  induction s with
  | nil => simp [beNat]
  | cons b s ih =>
    rw [beNat_cons, List.length_cons, pow_succ]
    have hb : b.toNat + 1 ≤ 256 := b.isLt
    calc b.toNat * 256 ^ s.length + beNat s < (b.toNat + 1) * 256 ^ s.length := by ring_nf; omega
      _ ≤ 256 * 256 ^ s.length := Nat.mul_le_mul_right _ hb
      _ = 256 ^ s.length * 256 := Nat.mul_comm _ _

/-- Writing an integer and reading it back: the low bytes survive. -/
theorem natBytes_add (n v w : Nat) : natBytes n (w * 256 ^ n + v) = natBytes n v := by
  induction n generalizing v w with
  | zero => rfl
  | succ n ih =>
    have e : w * 256 ^ (n + 1) + v = w * 256 * 256 ^ n + v := by rw [pow_succ]; ring
    simp only [natBytes]
    congr 1
    · rw [e, Nat.add_comm, Nat.add_mul_div_right _ _ (by positivity)]
      apply BitVec.eq_of_toNat_eq
      simp
    · rw [e, ih]

@[simp] theorem natBytes_beNat (s : Bytes) : natBytes s.length (beNat s) = s := by
  induction s with
  | nil => rfl
  | cons b s ih =>
    simp only [List.length_cons, natBytes, beNat_cons]
    congr 1
    · rw [Nat.add_comm, Nat.add_mul_div_right _ _ (by positivity), Nat.div_eq_of_lt (beNat_lt s)]
      simp
    · rw [natBytes_add, ih]

end Sys2Proof.Machine
end

