-- ==== Sys2Proof/Laws/Framer.lean ====
section
/-! SUPPORT. What one byte can do to the framer, said once, and its frame. -/

namespace Sys2Proof.Machine

/-- Everything outside the framer, EVQ apart (44_stream_framer.md R236). -/
abbrev outsideFramer (s t : State) : Prop :=
  t.cfg = s.cfg ∧ t.sync0 = s.sync0 ∧ t.sync1 = s.sync1 ∧ t.maxbuf = s.maxbuf ∧ t.hdr = s.hdr ∧ t.shlen = s.shlen
    ∧ t.crcv = s.crcv ∧ t.status = s.status ∧ t.consumed = s.consumed ∧ t.out = s.out ∧ t.params = s.params
    ∧ t.pending = s.pending ∧ t.rdValue = s.rdValue

/-- What `unit(u)` can do (R237): report the packet, or report the error and go home. -/
theorem frUnit_cases (u : Bytes) (s : State) :
    (∃ p n, spDecode u s.crcEn = .ok (p, n) ∧
        frUnit u s = { s with evq := s.evq ++ [.packet p], fbuf := [], fmode := s.afterUnit }) ∨
      ∃ e, spDecode u s.crcEn = .error e ∧
        frUnit u s = { s with evq := s.evq ++ [.unitError e], fbuf := [], fmode := s.home } := by
  unfold frUnit
  cases h : spDecode u s.crcEn with
  | ok r => exact .inl ⟨r.1, r.2, rfl, rfl⟩
  | error e => exact .inr ⟨e, rfl, rfl⟩

/-- What one byte can do in Accumulating (R235): overflow, complete a unit, or be kept. -/
theorem frAccumulate_cases (b : Byte) (s : State) :
    (s.maxbuf.toNat < (s.fbuf ++ [b]).length ∧
        frAccumulate b s =
          { s with evq := s.evq ++ [.unitError .frameTooLarge], fbuf := [], fmode := s.home }) ∨
      ((s.fbuf ++ [b]).length ≤ s.maxbuf.toNat ∧ unitComplete (s.fbuf ++ [b]) = true ∧
        frAccumulate b s = frUnit (s.fbuf ++ [b]) s) ∨
      ((s.fbuf ++ [b]).length ≤ s.maxbuf.toNat ∧ unitComplete (s.fbuf ++ [b]) = false ∧
        frAccumulate b s = { s with fbuf := s.fbuf ++ [b] }) := by
  unfold frAccumulate
  by_cases h : (s.fbuf ++ [b]).length > s.maxbuf.toNat
  · exact .inl ⟨h, by simp only [h, if_true]; rfl⟩
  · by_cases hc : unitComplete (s.fbuf ++ [b]) = true
    · exact .inr (.inl ⟨by omega, hc, by simp only [h, if_false, hc, if_true]⟩)
    · exact .inr (.inr ⟨by omega, by simpa using hc, by simp only [h, if_false, hc]; rfl⟩)

/-- What one byte can do in Searching (R234): complete the marker, push a byte out of the window, or be kept. -/
theorem frSearch_cases (m : Bytes) (b : Byte) (s : State) :
    (s.fwin ++ [b] = m ∧
        frSearch m b s =
          { s with evq := if s.fskip = 0 then s.evq else s.evq ++ [.skipped s.fskip]
                   fskip := 0, fwin := [], fbuf := [], fmode := .accumulating }) ∨
      (s.fwin ++ [b] ≠ m ∧ (s.fwin ++ [b]).length = m.length ∧
        frSearch m b s = { s with fskip := satIncr s.fskip, fwin := (s.fwin ++ [b]).drop 1 }) ∨
      (s.fwin ++ [b] ≠ m ∧ (s.fwin ++ [b]).length ≠ m.length ∧
        frSearch m b s = { s with fwin := s.fwin ++ [b] }) := by
  unfold frSearch
  by_cases h : s.fwin ++ [b] = m
  · refine .inl ⟨h, ?_⟩
    simp only [h, if_true, emitSkipped]
    split <;> rfl
  · by_cases hk : (s.fwin ++ [b]).length = m.length
    · exact .inr (.inl ⟨h, hk, by simp only [h, if_false, hk, if_true]⟩)
    · exact .inr (.inr ⟨h, hk, by simp only [h, if_false, hk]⟩)

/-- Which of the two a byte goes through (R232, R233). -/
theorem frByte_cases (s : State) (b : Byte) :
    (∃ m, s.fmode = .searching ∧ s.syncMarker = some m ∧ frByte s b = frSearch m b s) ∨
      frByte s b = frAccumulate b s := by
  unfold frByte
  cases hm : s.fmode <;> cases hs : s.syncMarker
  · exact .inr rfl
  · exact .inl ⟨_, rfl, rfl, rfl⟩
  · exact .inr rfl
  · exact .inr rfl

theorem frByte_frame (s : State) (b : Byte) : outsideFramer s (frByte s b) := by
  rcases frByte_cases s b with ⟨m, -, -, h⟩ | h <;> rw [h]
  · rcases frSearch_cases m b s with ⟨-, h⟩ | ⟨-, -, h⟩ | ⟨-, -, h⟩ <;> rw [h] <;> simp [outsideFramer]
  · rcases frAccumulate_cases b s with ⟨-, h⟩ | ⟨-, -, h⟩ | ⟨-, -, h⟩ <;> rw [h]
    · simp [outsideFramer]
    · rcases frUnit_cases (s.fbuf ++ [b]) s with ⟨p, n, -, h⟩ | ⟨e, -, h⟩ <;> rw [h] <;> simp [outsideFramer]
    · simp [outsideFramer]

theorem frBytes_nil (s : State) : frBytes [] s = s := rfl

theorem frBytes_cons (b : Byte) (l : Bytes) (s : State) : frBytes (b :: l) s = frBytes l (frByte s b) := rfl

theorem frBytes_append (u v : Bytes) (s : State) : frBytes (u ++ v) s = frBytes v (frBytes u s) := by
  simp [frBytes]

theorem frBytes_frame (inp : Bytes) (s : State) : outsideFramer s (frBytes inp s) := by
  induction inp generalizing s with
  | nil => simp [frBytes_nil, outsideFramer]
  | cons b l ih =>
    have h1 := frByte_frame s b
    have h2 := ih (frByte s b)
    rw [frBytes_cons]
    simp only [outsideFramer] at h1 h2 ⊢
    simp [h1, h2]

end Sys2Proof.Machine
end

