-- ==== Sys2Proof/Laws/Linear.lean ====
section
/-! SUPPORT. The CRC and the BCH remainder are linear over GF(2) (00_scope.md R13): the lemmas their laws rest on. -/

namespace Sys2Proof.Machine

theorem crcShift_zero (p : CrcParams) : crcShift p 0 = 0 := by simp [crcShift]

theorem crcShift_add (p : CrcParams) (a b : Half) : crcShift p (a ^^^ b) = crcShift p a ^^^ crcShift p b := by
  have hs : (a ^^^ b) <<< 1 = a <<< 1 ^^^ b <<< 1 := BitVec.shiftLeft_xor_distrib a b 1
  unfold crcShift
  rw [BitVec.msb_xor, hs]
  cases ha : a.msb <;> cases hb : b.msb <;> simp <;> ext i <;> simp <;> grind

theorem crcShifts_add (p : CrcParams) (n : Nat) (a b : Half) :
    Nat.repeat (crcShift p) n (a ^^^ b) = Nat.repeat (crcShift p) n a ^^^ Nat.repeat (crcShift p) n b := by
  induction n with
  | zero => rfl
  | succ n ih => simp only [Nat.repeat, ih, crcShift_add]

/-- The value after one byte depends on the register and the byte only through their sum at the top (40_crc.md R120). -/
theorem crcByte_eq (c : Half) (b : Byte) :
    crcByte consts.crc c b = Nat.repeat (crcShift consts.crc) 8 (c ^^^ (b.setWidth 16 <<< 8)) := rfl

theorem crc16_eq (s : Bytes) : crc16 s = s.foldl (crcByte consts.crc) 0xFFFF := by
  simp [crc16, crcWith]

theorem crc16_append (u v : Bytes) : crc16 (u ++ v) = v.foldl (crcByte consts.crc) (crc16 u) := by
  simp [crc16_eq]

theorem bchReduce_add (j : Nat) (a b : BitVec 63) : bchReduce j (a ^^^ b) = bchReduce j a ^^^ bchReduce j b := by
  induction j generalizing a b with
  | zero => rfl
  | succ j ih =>
    simp only [bchReduce, BitVec.getLsbD_xor]
    rw [← ih]
    congr 1
    cases ha : a.getLsbD (j + 7) <;> cases hb : b.getLsbD (j + 7) <;> simp <;> ext i <;> simp <;> grind

/-- The remainder of a sum is the sum of the remainders (43_bch_cltu.md R191). -/
theorem bchRem_add (a b : BitVec 63) : bchRem (a ^^^ b) = bchRem a ^^^ bchRem b := by
  simp only [bchRem, bchReduce_add]
  ext i
  simp

/-- A polynomial of degree at most 6 is its own remainder. -/
theorem bchRem_small (v : BitVec 7) : bchRem (v.setWidth 63) = v := by
  revert v
  decide +kernel

end Sys2Proof.Machine
end

