-- ==== Sys2Proof/Laws/Ops.lean ====
section
/-! SUPPORT. What the shared operations can do, said once: register access, completing and failing. -/

namespace Sys2Proof.Machine

@[simp] theorem regOfNum_num (r : Reg) : regOfNum r.num = some r := by cases r <;> rfl

theorem num_of_regOfNum : ∀ n : BitVec 8, ∀ r, regOfNum n = some r → r.num = n := by decide +kernel

/-- What `WR` can do (10_state.md R39): reject, or accept a legal value of an assigned register. -/
theorem writeReg_cases (n : BitVec 8) (v : Word) (s : State) :
    writeReg n v s = rejectWrite s ∨
      ∃ r, regOfNum n = some r ∧ writeLegal r v = true ∧ writeReg n v s = acceptWrite r v s := by
  unfold writeReg
  cases regOfNum n with
  | none => exact .inl rfl
  | some r =>
    by_cases h : writeLegal r v = true
    · exact .inr ⟨r, rfl, h, by simp [h]⟩
    · exact .inl (by simp [h])

theorem acceptWrite_config {r : Reg} (h : r.isConfig = true) (v : Word) (s : State) :
    acceptWrite r v s = framerClear (storeReg r v s) := by simp [acceptWrite, h]

theorem acceptWrite_other {r : Reg} (h : r.isConfig = false) (v : Word) (s : State) :
    acceptWrite r v s = storeReg r v s := by simp [acceptWrite, h]

/-- A stored register changes no result, no framer state and none of the model's own fields. -/
theorem storeReg_frame (r : Reg) (v : Word) (s : State) :
    (storeReg r v s).crcv = s.crcv ∧ (storeReg r v s).status = s.status ∧ (storeReg r v s).consumed = s.consumed
      ∧ (storeReg r v s).fmode = s.fmode ∧ (storeReg r v s).fskip = s.fskip ∧ (storeReg r v s).fbuf = s.fbuf
      ∧ (storeReg r v s).fwin = s.fwin ∧ (storeReg r v s).out = s.out ∧ (storeReg r v s).evq = s.evq
      ∧ (storeReg r v s).params = s.params ∧ (storeReg r v s).pending = s.pending
      ∧ (storeReg r v s).rdValue = s.rdValue := by
  cases r <;> simp [storeReg]

theorem setWidth_of_fits {k : Nat} {v : Word} (h : fits v k = true) : (v.setWidth k).setWidth 32 = v := by
  have h' : v.toNat < 2 ^ k := by simpa [fits] using h
  apply BitVec.eq_of_toNat_eq
  simp only [BitVec.toNat_setWidth]
  rw [Nat.mod_eq_of_lt h', Nat.mod_eq_of_lt v.isLt]

/-- A legal value of CFG has its upper 25 bits 0. -/
theorem cfg_fits {v : Word} (h : writeLegal .cfg v = true) : fits v 7 = true := by
  have h0 : v.extractLsb' 7 25 = 0 := by
    have := h; simp only [writeLegal, Bool.and_eq_true, decide_eq_true_eq] at this; exact this.1.1
  have h1 := congrArg BitVec.toNat h0
  simp only [BitVec.extractLsb'_toNat, Nat.shiftRight_eq_div_pow] at h1
  have := v.isLt
  simp [fits] at *
  omega

/-- Reading back a legal value that was just stored gives it (R39, 20_memory.md R69). -/
theorem regValue_storeReg {r : Reg} {v : Word} (h : writeLegal r v = true) (s : State) :
    regValue (storeReg r v s) r = v := by
  cases r with
  | cfg => exact setWidth_of_fits (cfg_fits h)
  | sync0 => rfl
  | sync1 => rfl
  | maxbuf => rfl
  | fVer => exact setWidth_of_fits h
  | fType => exact setWidth_of_fits h
  | fShf => exact setWidth_of_fits h
  | fApid => exact setWidth_of_fits h
  | fSeqf => exact setWidth_of_fits h
  | fSeqc => exact setWidth_of_fits h
  | fPdl => exact setWidth_of_fits h
  | shlen =>
    have h' : v.toNat ≤ 65536 := by simpa only [writeLegal, consts_maxTrailing, decide_eq_true_eq] using h
    exact setWidth_of_fits (k := 17) (by simp [fits]; omega)
  | crcv => simp [writeLegal] at h
  | status => simp [writeLegal] at h
  | consumed => simp [writeLegal] at h
  | fmode => simp [writeLegal] at h
  | fbuflen => simp [writeLegal] at h
  | fskip => simp [writeLegal] at h

/-- Taking an error leaves everything but STATUS, OUT and EVQ alone (60_exceptions.md R273). -/
theorem raise_eq (e : Code) (s : State) :
    raise e s = { s with status := { code := e, corr := false }, out := [], evq := [] } := rfl

theorem finish_eq (o : Bytes) (s : State) :
    finish o s = { s with status := { code := .success, corr := false }, out := o, evq := [] } := rfl

end Sys2Proof.Machine
end

