-- ==== Sys2Proof/Laws/PerInstr.lean ====
section
/-! SUPPORT. Facts about every command as syntax, one lemma per constructor. -/

namespace Sys2Proof.Laws.CommandWord

/-- The command's word has zeros in RSV, an opcode that decodes to the command, and its encoding carries the operand
(30_encoding.md R80, R82). -/
def Statement (i : Instr) : Prop :=
  rsvField i.word = 0 ∧ decodeOpcode (opcField i.word) i.operand = some i ∧ (encode i).operand = i.operand

theorem crcCompute (inp : Bytes) : Statement (.crcCompute inp) := by
  simp [Statement, rsvField, opcField, Instr.word, decodeOpcode, Instr.operand, encode]
theorem crcVerify (inp : Bytes) : Statement (.crcVerify inp) := by
  simp [Statement, rsvField, opcField, Instr.word, decodeOpcode, Instr.operand, encode]
theorem phEncode (inp : Bytes) : Statement (.phEncode inp) := by
  simp [Statement, rsvField, opcField, Instr.word, decodeOpcode, Instr.operand, encode]
theorem phDecode (inp : Bytes) : Statement (.phDecode inp) := by
  simp [Statement, rsvField, opcField, Instr.word, decodeOpcode, Instr.operand, encode]
theorem spEncode (inp : Bytes) : Statement (.spEncode inp) := by
  simp [Statement, rsvField, opcField, Instr.word, decodeOpcode, Instr.operand, encode]
theorem spDecode (inp : Bytes) : Statement (.spDecode inp) := by
  simp [Statement, rsvField, opcField, Instr.word, decodeOpcode, Instr.operand, encode]
theorem bchEncodeBlock (inp : Bytes) : Statement (.bchEncodeBlock inp) := by
  simp [Statement, rsvField, opcField, Instr.word, decodeOpcode, Instr.operand, encode]
theorem bchDecodeBlock (inp : Bytes) : Statement (.bchDecodeBlock inp) := by
  simp [Statement, rsvField, opcField, Instr.word, decodeOpcode, Instr.operand, encode]
theorem cltuEncode (inp : Bytes) : Statement (.cltuEncode inp) := by
  simp [Statement, rsvField, opcField, Instr.word, decodeOpcode, Instr.operand, encode]
theorem randomize (inp : Bytes) : Statement (.randomize inp) := by
  simp [Statement, rsvField, opcField, Instr.word, decodeOpcode, Instr.operand, encode]
theorem framerPush (inp : Bytes) : Statement (.framerPush inp) := by
  simp [Statement, rsvField, opcField, Instr.word, decodeOpcode, Instr.operand, encode]
theorem framerReset (inp : Bytes) : Statement (.framerReset inp) := by
  simp [Statement, rsvField, opcField, Instr.word, decodeOpcode, Instr.operand, encode]

end Sys2Proof.Laws.CommandWord
end

