-- ==== Sys2Proof/Tests/Slice0.lean ====
section
/-! SUPPORT. Tests of the model. Expected values are the spec's: the vectors V<n>.<k> and E<n> of 95_test_vectors.md, or the
rule named. The theorems test_witness_<Statement>... show states and operands that meet a statement's hypotheses. -/

namespace Sys2Proof.Tests

open Sys2Proof Sys2Proof.Machine

/-- The state after one command; every command answers a next state. -/
def after (i : Instr) (s : State) : State :=
  match exec i s with
  | .next t => t
  | .fault _ => s
  | .refused _ => s

/-- The state after one host action. -/
def act (a : HostAction) (s : State) : State :=
  match step { s with pending := [a] } with
  | .next t => t
  | .fault _ => s
  | .refused _ => s

/-- STATUS.CODE and OUT after one command. -/
def codeOut (i : Instr) (s : State) : Code × Bytes := ((after i s).status.code, (after i s).out)

/-- The reset state with a given CFG. -/
def withCfg (c : BitVec 7) : State := { State.reset with cfg := c }

/-- The header of the example packet, with a given length field (E1). -/
def exHdr (pdl : Half) : Header := { ver := 0, ptype := 1, shf := 1, apid := 0x012, seqf := 3, seqc := 3, pdl := pdl }

/-- `PAY` of 95_test_vectors.md. -/
def pay : Bytes := [0x73, 0x65, 0x63, 0x72, 0x65, 0x74, 0x20, 0x70, 0x61, 0x79, 0x6C, 0x6F, 0x61, 0x64]

/-- `P2` of 95_test_vectors.md, and the record it decodes to. -/
def p2 : Bytes := [0x18, 0x12, 0xC0, 0x04, 0x00, 0x01, 0x41, 0x42]

def p2Packet : Packet := { hdr := { exHdr 1 with seqc := 4 }, data := [0x41, 0x42], crc := none }

/-- The marker `1A CF FC 1D` of 95_test_vectors.md. -/
def mk : Bytes := [0x1A, 0xCF, 0xFC, 0x1D]

/-- Searching for `mk` with nothing held, CFG bits 1:0 and FRAMER_REARM as given. -/
def searching (c : BitVec 7) (r : Rearm) : State :=
  { State.reset with cfg := 0x24 ||| c, sync0 := 0x1ACFFC1D, fmode := .searching, params := { inMax := 65542, rearm := r } }

/-- What a framer test looks at: EVQ, FMODE, FBUF, FWIN, FSKIP. -/
def framerView (s : State) : List Event × FramerMode × Bytes × Bytes × Word := (s.evq, s.fmode, s.fbuf, s.fwin, s.fskip)

/-! ### Well-formed commands -/

/-- R76: an operand one byte over IN_MAX is refused; one of exactly IN_MAX bytes is not. -/
theorem test_wellFormed_operand_over_limit :
    (Instr.crcCompute [1, 2, 3]).wellFormed 2 = false ∧ (Instr.crcCompute [1, 2]).wellFormed 2 = true := by decide

/-- R85: the operand forms whose violation is IllegalCommand. -/
theorem test_operandForm_refuses :
    (Instr.phEncode [0]).operandForm 0 = false ∧ (Instr.framerReset [0]).operandForm 0 = false
      ∧ (Instr.bchEncodeBlock [1, 2, 3, 4, 5, 6]).operandForm 0 = false
      ∧ (Instr.bchDecodeBlock [1, 2, 3, 4, 5, 6, 7]).operandForm 0 = false
      ∧ (Instr.spEncode [0xAA, 0xBB, 1]).operandForm 4 = false ∧ (Instr.spEncode [0xAA, 0xBB, 1]).operandForm 3 = true := by
  decide

/-! ### Decoding: every word of R82, and illegal words -/

theorem test_decode_crcCompute : decode 9 ⟨0x00000001, [7]⟩ = .ok (.crcCompute [7]) := by rfl
theorem test_decode_crcVerify : decode 9 ⟨0x00000002, [7]⟩ = .ok (.crcVerify [7]) := by rfl
theorem test_decode_phEncode : decode 9 ⟨0x00000010, []⟩ = .ok (.phEncode []) := by rfl
theorem test_decode_phDecode : decode 9 ⟨0x00000011, [7]⟩ = .ok (.phDecode [7]) := by rfl
theorem test_decode_spEncode : decode 9 ⟨0x00000020, [7]⟩ = .ok (.spEncode [7]) := by rfl
theorem test_decode_spDecode : decode 9 ⟨0x00000021, [7]⟩ = .ok (.spDecode [7]) := by rfl
theorem test_decode_bchEncodeBlock : decode 9 ⟨0x00000030, [7]⟩ = .ok (.bchEncodeBlock [7]) := by rfl
theorem test_decode_bchDecodeBlock : decode 9 ⟨0x00000031, [7]⟩ = .ok (.bchDecodeBlock [7]) := by rfl
theorem test_decode_cltuEncode : decode 9 ⟨0x00000032, [7]⟩ = .ok (.cltuEncode [7]) := by rfl
theorem test_decode_randomize : decode 9 ⟨0x00000033, [7]⟩ = .ok (.randomize [7]) := by rfl
theorem test_decode_framerPush : decode 9 ⟨0x00000040, [7]⟩ = .ok (.framerPush [7]) := by rfl
theorem test_decode_framerReset : decode 9 ⟨0x00000041, []⟩ = .ok (.framerReset []) := by rfl

/-- V1.12, V1.13 and the ends of the gaps of R83. -/
theorem test_decodeTableWord_illegal :
    [0x00, 0x03, 0x0F, 0x12, 0x1F, 0x22, 0x2F, 0x34, 0x3F, 0x42, 0xFF, 0x140, 0x80000001].map (decodeTableWord 32)
      = [none, none, none, none, none, none, none, none, none, none, none, none, none] := by decide

/-- The host's two questions, on a row: the decoder gives the command, and the first step after reset runs it. -/
theorem test_first_step_runs_table_word :
    decodeTableWord 32 0x33 = some (.randomize [])
      ∧ step (State.reset.withFetchWord 32 0x33) = exec (.randomize []) State.reset := ⟨by decide, by rfl⟩

/-- V1.13, V1.14: an illegal word leaves the framer, an operand over IN_MAX leaves CRCV. -/
theorem test_illegal_command_effect :
    (let s := { State.reset with fbuf := [1], crcv := 5, params := { inMax := 1, rearm := .search } }
     let t := act (.cmd ⟨0x140, [1]⟩) s
     let u := act (.cmd ⟨0x01, [1, 2]⟩) s
     (t.status.word, t.fbuf, u.status.word, u.crcv)) = (9, [1], 9, 5) := by decide

/-! ### Register access -/

/-- V1.1 to V1.4: CFG 0x44 is accepted and searches; 0x04, 0x48 and 0x81 are rejected. -/
theorem test_wr_cfg :
    [0x44, 0x04, 0x48, 0x81].map (fun v => (act (.wr 0 v) State.reset).cfg) = [0x44, 0, 0, 0]
      ∧ [0x44, 0x04, 0x48, 0x81].map (fun v => (act (.wr 0 v) State.reset).status.word) = [0, 9, 9, 9]
      ∧ (act (.wr 0 0x44) State.reset).fmode = .searching := by decide

/-- V1.5 to V1.8 and V1.11: the field limits, RO and reserved numbers; an accepted write keeps STATUS 9. -/
theorem test_wr_fields :
    (act (.wr 0x0B 0x800) State.reset).status.word = 9 ∧ (act (.wr 0x0B 0x7FF) State.reset).hdr.apid = 0x7FF
      ∧ (act (.wr 0x0D 0x4000) State.reset).status.word = 9 ∧ (act (.wr 0x0C 4) State.reset).status.word = 9
      ∧ (act (.wr 0x0F 65536) State.reset).shlen = 65536 ∧ (act (.wr 0x0F 65537) State.reset).status.word = 9
      ∧ (act (.wr 0x11 0) State.reset).status.word = 9 ∧ (act (.wr 0x04 1) State.reset).status.word = 9
      ∧ (act (.wr 0x0B 0x7FF) (act (.wr 0x0B 0x800) State.reset)).status.word = 9 := by decide

/-- V1.9, V6.17: a reserved number reads 0; a configuration write drops the partial header. -/
theorem test_rd_and_framer_reset :
    (act (.rd 0x04) State.reset).rdValue = some 0 ∧ (act (.rd 0xFF) State.reset).rdValue = some 0
      ∧ (act (.rd 0x03) State.reset).rdValue = some 65542
      ∧ (let s := { searching 0 .search with fmode := .accumulating, fbuf := [0x18, 0x12, 0xC0, 0x04, 0x00] }
         (act (.rd 0x14) s).rdValue = some 5 ∧ framerView (act (.wr 0 0x25) s) = ([], .searching, [], [], 0)) := by decide

/-- R300: the reset action clears everything but the model's own fields. -/
theorem test_reset_action :
    act .reset { State.reset with cfg := 3, maxbuf := 1, crcv := 7, fbuf := [1], out := [2], fmode := .searching }
      = State.reset := by decide

/-! ### CRC engine -/

/-- V2.1, V2.2. -/
theorem test_crcCompute :
    codeOut (.crcCompute []) State.reset = (.success, [0xFF, 0xFF])
      ∧ (after (.crcCompute [0x31, 0x32, 0x33, 0x34, 0x35, 0x36, 0x37, 0x38, 0x39]) State.reset).crcv = 0x29B1 := by
  decide +kernel

/-- V2.7 to V2.11. -/
theorem test_crcVerify :
    [[], [0x12], [0xFF, 0xFF], [0, 0]].map (fun l =>
        ((after (.crcVerify l) State.reset).status.word, (after (.crcVerify l) State.reset).crcv))
      = [(4, 0), (4, 0), (0, 0xFFFF), (4, 0xFFFF)]
      ∧ (after (.crcVerify [0x31, 0x32, 0x33, 0x34, 0x35, 0x36, 0x37, 0x38, 0x39, 0x29, 0xB0]) State.reset).crcv = 0x29B1 := by
  decide +kernel

/-! ### Primary header codec -/

/-- V3.1, V3.2, V3.5. -/
theorem test_phEncode :
    codeOut (.phEncode []) { State.reset with hdr := exHdr 13 } = (.success, [0x18, 0x12, 0xC0, 0x03, 0x00, 0x0D])
      ∧ codeOut (.phEncode [])
          { State.reset with hdr := { ver := 7, ptype := 1, shf := 1, apid := 0x7FF, seqf := 3, seqc := 0x3FFF, pdl := 0xFFFF } }
        = (.success, [0xFF, 0xFF, 0xFF, 0xFF, 0xFF, 0xFF])
      ∧ codeOut (.phEncode [0]) State.reset = (.illegalCommand, []) := by decide

/-- V3.4: the four sequence flags. -/
theorem test_phEncode_seqf :
    [0, 1, 2, 3].map (fun f => (after (.phEncode []) { State.reset with
        hdr := { ver := 0, ptype := 0, shf := 0, apid := 0x7FF, seqf := f, seqc := 0x1234, pdl := 0x0100 } }).out)
      = [[0x07, 0xFF, 0x12, 0x34, 1, 0], [0x07, 0xFF, 0x52, 0x34, 1, 0], [0x07, 0xFF, 0x92, 0x34, 1, 0],
         [0x07, 0xFF, 0xD2, 0x34, 1, 0]] := by decide

/-- V3.6, V3.9: a failed decode keeps the fields and clears CONSUMED. -/
theorem test_phDecode :
    (let s := after (.phDecode [0x18, 0x12, 0xC0, 0x03, 0x00, 0x0D]) State.reset
     let t := after (.phDecode [0x18, 0x12, 0xC0, 0x03, 0x00]) s
     (s.hdr, s.consumed, t.hdr, t.consumed, t.status.word)) = (exHdr 13, 6, exHdr 13, 0, 1) := by decide

/-- V3.7: the version is not checked and bytes past the sixth are ignored. -/
theorem test_phDecode_version :
    (let s := after (.phDecode [0xE0, 0, 0, 0, 0, 0, 1, 2]) State.reset
     (s.hdr.ver, s.hdr.pdl, s.consumed)) = (7, 0, 6) := by decide

/-- R18: the enumerations and their field values. -/
theorem test_enumerations :
    PacketType.ofField 0 = .telemetry ∧ PacketType.ofField 1 = .command ∧ SeqFlag.ofField 0 = .continuation
      ∧ SeqFlag.ofField 1 = .firstSegment ∧ SeqFlag.ofField 2 = .lastSegment ∧ SeqFlag.ofField 3 = .unsegmented := by
  decide

/-! ### Space packet codec -/

/-- E1: the example packet, CRC off and on. -/
theorem test_spEncode_example :
    codeOut (.spEncode pay) { State.reset with hdr := exHdr 0 } = (.success, [0x18, 0x12, 0xC0, 0x03, 0x00, 0x0D] ++ pay)
      ∧ codeOut (.spEncode pay) { withCfg 1 with hdr := exHdr 0 }
        = (.success, [0x18, 0x12, 0xC0, 0x03, 0x00, 0x0F] ++ pay ++ [0xF2, 0xF3]) := by decide +kernel

/-- V4.3 to V4.6: secondary header bytes, SHLEN over the operand, empty packets. -/
theorem test_spEncode_corners :
    (let h : Header := { ver := 0, ptype := 0, shf := 1, apid := 0x7FF, seqf := 3, seqc := 0x3FFF, pdl := 0 }
     codeOut (.spEncode [0xAA, 0xBB, 1]) { withCfg 1 with hdr := h, shlen := 2 }
         = (.success, [0x0F, 0xFF, 0xFF, 0xFF, 0x00, 0x04, 0xAA, 0xBB, 0x01, 0x87, 0xDD])
       ∧ codeOut (.spEncode [0xAA, 0xBB, 1]) { withCfg 1 with shlen := 4 } = (.illegalCommand, [])
       ∧ (after (.spEncode []) (withCfg 1)).hdr.pdl = 1
       ∧ codeOut (.spEncode []) (withCfg 0) = (.emptyDataField, [])) := by decide +kernel

/-- E1, V4.9: decoding the example packet, CRC on, and one with bytes after it. -/
theorem test_spDecode_example :
    (let s := after (.spDecode ([0x18, 0x12, 0xC0, 0x03, 0x00, 0x0F] ++ pay ++ [0xF2, 0xF3])) (withCfg 1)
     (s.status.word, s.out, s.hdr, s.crcv, s.consumed)) = (0, pay, exHdr 15, 0xF2F3, 22)
      ∧ (after (.spDecode (p2 ++ [0xEE, 0xFF])) State.reset).consumed = 8 := by decide +kernel

/-- V4.10 to V4.15: declared length 0, and damaged packets. -/
theorem test_spDecode_errors :
    (after (.spDecode [0, 0, 0xC0, 0, 0, 0, 0x41]) (withCfg 0)).status.word = 0
      ∧ (after (.spDecode [0, 0, 0xC0, 0, 0, 0, 0x41]) (withCfg 1)).status.word = 2
      ∧ (after (.spDecode ([0x98, 0x12, 0xC0, 0x03, 0x00, 0x0F] ++ pay ++ [0xF2, 0xF3])) (withCfg 1)).status.word = 4
      ∧ (after (.spDecode ([0x18, 0x12, 0xC0, 0x03, 0x00, 0x0E] ++ pay ++ [0xF2, 0xF3])) (withCfg 1)).status.word = 4
      ∧ (after (.spDecode ([0x18, 0x12, 0xC0, 0x03, 0x80, 0x0F] ++ pay ++ [0xF2, 0xF3])) (withCfg 1)).status.word = 2
      ∧ (after (.spDecode [0x18, 0x12]) State.reset).status.word = 1 := by decide +kernel

/-! ### BCH, CLTU, randomizer -/

/-- V5.1 to V5.8. -/
theorem test_bchEncodeBlock :
    [[0, 0, 0, 0, 0, 0, 0], [0x55, 0x55, 0x55, 0x55, 0x55, 0x55, 0x55], [0xFF, 0xFF, 0xFF, 0xFF, 0xFF, 0xFF, 0xFF],
     [0x41, 0x42, 0x43, 0x44, 0x45, 0x46, 0x47], [1, 2, 3, 4, 5, 6, 7], [0x80, 0, 0, 0, 0, 0, 0], [0, 0, 0, 0, 0, 0, 1]].map
        (fun d => byteAt (after (.bchEncodeBlock d) State.reset).out 7)
      = [0xFE, 0xD6, 0x86, 0xB8, 0x70, 0x3A, 0x74]
      ∧ codeOut (.bchEncodeBlock [1, 2, 3, 4, 5, 6]) State.reset = (.illegalCommand, []) := by decide +kernel

/-- V5.9 to V5.17, V5.20, V5.21: no, one, two, three and four flipped bits; STATUS 0x10 is CORR. -/
theorem test_bchDecodeBlock :
    [[1, 2, 3, 4, 5, 6, 7, 0x70], [1, 2, 3, 0x14, 5, 6, 7, 0x70], [1, 2, 3, 4, 5, 6, 7, 0xF0], [1, 2, 3, 4, 5, 6, 7, 0x71],
     [0xC1, 2, 3, 4, 5, 6, 7, 0x70], [0xE1, 2, 3, 4, 5, 6, 7, 0x70], [0xE1, 2, 3, 4, 4, 6, 7, 0x70]].map
        (fun c => ((after (.bchDecodeBlock c) State.reset).out, (after (.bchDecodeBlock c) State.reset).status.word))
      = [([1, 2, 3, 4, 5, 6, 7], 0), ([1, 2, 3, 4, 5, 6, 7], 0x10), ([1, 2, 3, 4, 5, 6, 7], 0x10), ([1, 2, 3, 4, 5, 6, 7], 0),
         ([], 6), ([0xE1, 2, 3, 4, 4, 6, 7], 0x10), ([0xE1, 2, 3, 4, 4, 6, 7], 0)] := by decide +kernel

/-- V5.24, V5.27. -/
theorem test_cltuEncode :
    (after (.cltuEncode [0, 1, 2, 3, 4, 5, 6, 7, 8, 9]) State.reset).out
        = [0xEB, 0x90, 0, 1, 2, 3, 4, 5, 6, 0xC6, 7, 8, 9, 0x55, 0x55, 0x55, 0x55, 0xF2,
           0xC5, 0xC5, 0xC5, 0xC5, 0xC5, 0xC5, 0xC5, 0x79]
      ∧ (after (.cltuEncode []) State.reset).out = [0xEB, 0x90, 0xC5, 0xC5, 0xC5, 0xC5, 0xC5, 0xC5, 0xC5, 0x79] := by
  decide +kernel

/-- V5.25: RAND_EN randomizes the frame and not the fill. -/
theorem test_cltuEncode_randomized :
    (after (.cltuEncode [0, 1, 2, 3, 4, 5, 6, 7, 8, 9]) (withCfg 2)).out
        = [0xEB, 0x90, 0xFF, 0x38, 0x9C, 0x59, 0x6C, 0xEC, 0x00, 0x9E, 0xF2, 0x64, 0x80, 0x55, 0x55, 0x55, 0x55, 0x22,
           0xC5, 0xC5, 0xC5, 0xC5, 0xC5, 0xC5, 0xC5, 0x79] := by decide +kernel

/-- V5.31, V5.32, and the first PRN bytes of R205. -/
theorem test_randomize :
    codeOut (.randomize [0, 1, 2, 3, 4, 5, 6, 7, 8, 9]) State.reset
        = (.success, [0xFF, 0x38, 0x9C, 0x59, 0x6C, 0xEC, 0x00, 0xF2, 0x64, 0x80])
      ∧ codeOut (.randomize []) State.reset = (.success, [])
      ∧ prn 16 = [0xFF, 0x39, 0x9E, 0x5A, 0x68, 0xE9, 0x06, 0xF5, 0x6C, 0x89, 0x2F, 0xA1, 0x31, 0x5E, 0x08, 0xC0] := by
  decide +kernel

/-! ### Stream framer -/

/-- V6.9, V6.3 with P2 P2: a marker after its own first byte; the second packet is scanned as garbage. -/
theorem test_framerPush_search :
    framerView (after (.framerPush (0x1A :: mk ++ p2)) (searching 0 .search))
        = ([.skipped 1, .packet p2Packet], .searching, [], [], 0)
      ∧ framerView (after (.framerPush (mk ++ p2 ++ p2)) (searching 0 .search))
        = ([.packet p2Packet], .searching, [], [0x01, 0x41, 0x42], 5) := by decide +kernel

/-- V6.4 with P2 P2: under `accumulate` the second packet is decoded too. -/
theorem test_framerPush_accumulate :
    framerView (after (.framerPush (mk ++ p2 ++ p2)) (searching 0 .accumulate))
      = ([.packet p2Packet, .packet p2Packet], .accumulating, [], [], 0) := by decide +kernel

/-- V6.12, and Program 4's overflow without a marker. -/
theorem test_framerPush_errors :
    framerView (after (.framerPush (mk ++ [0, 0, 0xC0, 0, 0, 0, 0x41])) (searching 1 .search))
        = ([.unitError .truncatedPacket], .searching, [], [], 0)
      ∧ framerView (after (.framerPush ([0, 1, 0xC0, 0, 0, 0x0A, 0, 1, 2, 3, 4, 5, 6, 7, 8, 9, 0x0A, 0x18, 0x12, 0xC0, 4, 0, 1,
          0x41, 0x42])) { State.reset with maxbuf := 12 })
        = ([.unitError .frameTooLarge], .accumulating, [7, 8, 9, 0x0A, 0x18, 0x12, 0xC0, 4, 0, 1, 0x41, 0x42], [], 0) := by
  decide +kernel

/-- V6.14, V6.16: a reset drops the held bytes with no event; a non-empty operand is an error. -/
theorem test_framerReset :
    framerView (after (.framerPush [0, 0x11, 0x22, 0x1A, 0xCF, 0xFC]) (searching 0 .search))
        = ([], .searching, [], [0x1A, 0xCF, 0xFC], 3)
      ∧ framerView (after (.framerReset []) { searching 0 .search with fwin := [0x1A], fskip := 3 })
        = ([], .searching, [], [], 0)
      ∧ codeOut (.framerReset [0]) (searching 0 .search) = (.illegalCommand, []) := by decide +kernel

/-! ### The host's side -/

/-- R86, R87. -/
theorem test_assembly :
    assemble State.reset (.command "CRC_VERIFY" [.ascii "12", .bytes [0x29, 0xB1], .copies 0 2])
        = some [.cmd ⟨0x00000002, [0x31, 0x32, 0x29, 0xB1, 0, 0]⟩]
      ∧ assemble State.reset (.command "DERANDOMIZE" [.bytes [1]]) = some [.cmd ⟨0x00000033, [1]⟩]
      ∧ assemble (withCfg 1) (.setSync mk) = some [.wr 0x01 0x1ACFFC1D, .wr 0x02 0, .wr 0x00 0x25]
      ∧ assemble (withCfg 0x25) .clrSync = some [.wr 0x00 0x01]
      ∧ assemble State.reset (.setSync []) = none := by decide +kernel

/-- Program 2: the host's decode path on a randomized CLTU whose second codeblock has a flipped bit; V3.10. -/
theorem test_hostCltuDecode :
    hostCltuDecode 9 true [0xEB, 0x90, 0xAB, 0x7A, 0xD8, 0x08, 0x29, 0xA4, 0x43, 0xB6, 0xD4, 0x4D, 0x45, 0x55, 0x55, 0x55, 0x55, 0x70,
        0xC5, 0xC5, 0xC5, 0xC5, 0xC5, 0xC5, 0xC5, 0x79]
      = some [0x54, 0x43, 0x46, 0x52, 0x41, 0x4D, 0x45, 0x21, 0x21] ∧ nextSeqCount 0x3FFF = 0 := by decide +kernel

/-! ### Witnesses: states and operands that meet the hypotheses of the statements -/

/-- A state whose host has one action pending. -/
def pend (a : HostAction) (s : State) : State := { s with pending := [a] }

/-- IN_MAX = 2, to reach its boundary. -/
def smallMax : State := { State.reset with params := { inMax := 2, rearm := .accumulate } }

/-- An operand of exactly IN_MAX bytes. -/
theorem test_witness_OpcodeMapWordsDecode : ([1, 2] : Bytes).length ≤ 2 := by decide

theorem test_witness_StepRunsDecodedCommand :
    (pend (.cmd ⟨0x01, [7]⟩) State.reset).pending = .cmd ⟨0x01, [7]⟩ :: []
      ∧ decode (pend (.cmd ⟨0x01, [7]⟩) State.reset).params.inMax ⟨0x01, [7]⟩ = .ok (.crcCompute [7]) := ⟨rfl, rfl⟩

/-- The two clauses at the boundary of IN_MAX, and at words beside the map. -/
theorem test_witness_CommandWordsRunOrAreIllegal :
    (pend (.cmd ⟨0x40, [1, 2]⟩) smallMax).pending = .cmd ⟨0x40, [1, 2]⟩ :: []
      ∧ [(1, 2), (2, 2), (0x40, 2), (0x41, 3), (0x42, 2), (0x101, 0), (0, 0)].map (fun p =>
          decide (p.1 ∈ [0x01, 0x02, 0x10, 0x11, 0x20, 0x21, 0x30, 0x31, 0x32, 0x33, 0x40, 0x41] ∧ p.2 ≤ smallMax.params.inMax))
        = [true, true, true, false, false, false, false] := ⟨rfl, by decide⟩

theorem test_witness_IdleStepKeepsState : State.reset.pending = [] := rfl

/-- Every clause of R39 at its boundary: the last accepted and the first rejected value. -/
theorem test_witness_WriteRejectedOrStored :
    (pend (.wr 0x0B 0x800) State.reset).pending = .wr 0x0B 0x800 :: []
      ∧ [((0x00 : BitVec 8), (0x44 : Word)), (0x00, 0x04), (0x00, 0x48), (0x00, 0x7F), (0x00, 0x80), (0x03, 0xFFFFFFFF), (0x04, 0),
         (0x07, 0), (0x08, 7), (0x08, 8), (0x09, 1), (0x09, 2), (0x0A, 1), (0x0A, 2), (0x0B, 0x7FF), (0x0B, 0x800), (0x0C, 3),
         (0x0C, 4), (0x0D, 0x3FFF), (0x0D, 0x4000), (0x0E, 0xFFFF), (0x0E, 0x10000), (0x0F, 65536), (0x0F, 65537), (0x10, 0),
         (0x15, 0), (0x16, 0), (0xFF, 0)].map (fun p => decide (writeRejected p.1 p.2))
        = [false, true, true, true, true, false, true, true, false, true, false, true, false, true, false, true, false, true,
           false, true, false, true, false, true, true, true, true, true] := ⟨rfl, by decide⟩

theorem test_witness_ConfigWriteResetsFramer :
    ((pend (.wr 3 0) State.reset).pending = .wr 3 0 :: [] ∧ ¬writeRejected 3 0)
      ∧ ((pend (.wr 8 7) State.reset).pending = .wr 8 7 :: [] ∧ ¬writeRejected 8 7) := by decide

theorem test_witness_ReadReturnsRegister :
    (pend (.rd 4) State.reset).pending = .rd 4 :: []
      ∧ [3, 4, 7, 8, 0x15, 0x16, 0xFF].map (fun n : BitVec 8 => decide ((4 ≤ n.toNat ∧ n.toNat ≤ 7) ∨ 0x16 ≤ n.toNat))
        = [false, true, true, false, false, true, true] := ⟨rfl, by decide⟩

/-- The FBUFLEN clause, in both modes. -/
theorem test_witness_RegisterMapReads :
    ({ State.reset with fbuf := [1, 2] } : State).Inv ∧ ({ searching 0 .search with fwin := [1, 2, 3] } : State).Inv := by decide

theorem test_witness_FbuflenReadsHeldBytes :
    ({ State.reset with fbuf := [1, 2] } : State).Inv ∧ ({ searching 0 .search with fwin := [1, 2, 3] } : State).Inv := by decide

theorem test_witness_ResetActionSetsEverything : (pend .reset (withCfg 3)).pending = .reset :: [] := rfl

theorem test_witness_CrcVerifyResult : ([] : Bytes).length < 2 ∧ ([0x12] : Bytes).length < 2 := by decide

theorem test_witness_PhEncodeResult : ([] : Bytes) = [] ∧ ([0] : Bytes) ≠ [] := by decide

theorem test_witness_PhDecodeResult : ([1, 2, 3, 4, 5] : Bytes).length < 6 := by decide

theorem test_witness_HeaderPackUnpackInverse : 6 ≤ ([1, 2, 3, 4, 5, 6] : Bytes).length := by decide

theorem test_witness_FieldRegistersFrame :
    exec (.spEncode [1]) State.reset = .next (after (.spEncode [1]) State.reset)
      ∧ (∀ inp, Instr.spEncode [1] ≠ .phDecode inp) ∧ (∀ inp, Instr.spEncode [1] ≠ .spDecode inp)
      ∧ exec (.randomize [1]) State.reset = .next (after (.randomize [1]) State.reset)
      ∧ (∀ inp, Instr.randomize [1] ≠ .spEncode inp) := ⟨rfl, by simp, by simp, rfl, by simp⟩

/-- The four clauses: SHLEN one over the operand, 65537 and 65536 trailing bytes, none, one. -/
theorem test_witness_SpEncodeResult :
    ([] : Bytes).length < ({ State.reset with shlen := 1 } : State).shlen.toNat
      ∧ (State.reset.shlen.toNat ≤ (rep 0 65537).length ∧ 65536 < (rep 0 65537).length + if State.reset.crcEn then 2 else 0)
      ∧ (State.reset.shlen.toNat ≤ ([] : Bytes).length ∧ ([] : Bytes).length + (if State.reset.crcEn then 2 else 0) = 0)
      ∧ (State.reset.shlen.toNat ≤ (rep 0 65536).length ∧ (rep 0 65536).length + (if State.reset.crcEn then 2 else 0) ≤ 65536)
      ∧ (1 ≤ ([7] : Bytes).length + if State.reset.crcEn then 2 else 0) := by
  have h : State.reset.crcEn = false := by decide
  have h0 : State.reset.shlen.toNat = 0 := by decide
  simp only [h, h0, rep, List.length_replicate]
  decide

/-- The six clauses: 5 bytes, 6 bytes, a whole packet with CRC off, declared length 0 with CRC on, a wrong and a right trailer
(V4.5). -/
theorem test_witness_SpDecodeResult :
    ([1, 2, 3, 4, 5] : Bytes).length < 6
      ∧ (let b : Bytes := [0, 0, 0xC0, 0, 0, 0]; 6 ≤ b.length ∧ b.length < 6 + ((be16 b 4).toNat + 1))
      ∧ (let b : Bytes := [0, 0, 0xC0, 0, 0, 0, 0x41]
         6 + ((be16 b 4).toNat + 1) ≤ b.length ∧ (be16 b 4).toNat + 1 = 1 ∧ (withCfg 0).crcEn = false ∧ (withCfg 1).crcEn = true)
      ∧ (let b : Bytes := [0, 0, 0xC0, 0, 0, 1, 0xAD, 0x94]
         6 + ((be16 b 4).toNat + 1) ≤ b.length ∧ 2 ≤ (be16 b 4).toNat + 1 ∧ crc16 (b.take 6) ≠ be16 b 6)
      ∧ (let b : Bytes := [0, 0, 0xC0, 0, 0, 1, 0xAD, 0x95]
         6 + ((be16 b 4).toNat + 1) ≤ b.length ∧ 2 ≤ (be16 b 4).toNat + 1 ∧ crc16 (b.take 6) = be16 b 6) := by decide +kernel

theorem test_witness_PacketRoundTrip :
    exec (.spEncode [9]) (withCfg 1) = .next (after (.spEncode [9]) (withCfg 1))
      ∧ (after (.spEncode [9]) (withCfg 1)).status.code = .success
      ∧ ({ withCfg 1 with crcv := 7 } : State).cfg = (withCfg 1).cfg ∧ (withCfg 1).crcEn = true := by
  exact ⟨rfl, by decide +kernel⟩

theorem test_witness_LengthFieldCorrect :
    exec (.spEncode [9]) State.reset = .next (after (.spEncode [9]) State.reset)
      ∧ (after (.spEncode [9]) State.reset).status.code = .success := ⟨rfl, by decide +kernel⟩

/-- The first bit, the last bit before the length field, the first after it, and the last bit of a 9-byte packet. -/
theorem test_witness_CrcCatchesSingleBitErrors :
    exec (.spEncode [9]) (withCfg 1) = .next (after (.spEncode [9]) (withCfg 1))
      ∧ (after (.spEncode [9]) (withCfg 1)).status.code = .success ∧ (withCfg 1).crcEn = true
      ∧ ∀ w ∈ [0, 31, 48, 71], w < 8 * (after (.spEncode [9]) (withCfg 1)).out.length ∧ w / 8 ≠ 4 ∧ w / 8 ≠ 5 := by
  exact ⟨rfl, by decide +kernel⟩

theorem test_witness_BchEncodeBlockResult :
    ([1, 2, 3, 4, 5, 6, 7] : Bytes).length = 7 ∧ ([1, 2, 3, 4, 5, 6] : Bytes).length ≠ 7 := by decide

theorem test_witness_BchParityIsRemainder : ([1, 2, 3, 4, 5, 6, 7] : Bytes).length = 7 := rfl

theorem test_witness_BchDecodeBlockResult :
    ([1, 2, 3, 4, 5, 6, 7] : Bytes).length ≠ 8
      ∧ (let c : Bytes := [0xC1, 2, 3, 4, 5, 6, 7, 0x70]; c.length = 8 ∧ bchDec c = none)
      ∧ (let c : Bytes := [1, 2, 3, 4, 5, 6, 7, 0xF0]; c.length = 8 ∧ bchDec c = some ([1, 2, 3, 4, 5, 6, 7], true)) := by
  decide +kernel

theorem test_witness_SyndromeTableIsExact :
    (let c : Bytes := [0xC1, 2, 3, 4, 5, 6, 7, 0x70]; c.length = 8 ∧ syndrome c ≠ 0 ∧ syndrome c ∉ syndromeTable) := by
  decide +kernel

theorem test_witness_SyndromeOfErrors :
    ([1, 2, 3, 4, 5, 6, 7] : Bytes).length = 7 ∧ ([1, 2, 3, 4, 5, 6, 7, 0x70] : Bytes).length = 8 ∧ 0 < 63 ∧ 62 < 63 := by decide

theorem test_witness_BchCorrectsOneDetectsTwo :
    ([1, 2, 3, 4, 5, 6, 7] : Bytes).length = 7 ∧ 0 < 63 ∧ 62 < 63 ∧ (0 < 1 ∧ 1 < 63) ∧ (61 < 62 ∧ 62 < 63) := by decide

/-- The first and the last block, and the first and the last byte and bit. -/
theorem test_witness_CltuEncodeResult : 0 < (([1, 2, 3, 4, 5, 6, 7, 8] : Bytes).length + 6) / 7 ∧ 1 < (([1, 2, 3, 4, 5, 6, 7, 8] : Bytes).length + 6) / 7 := by
  decide

theorem test_witness_RandomizeResult : 0 < ([1, 2] : Bytes).length ∧ 1 < ([1, 2] : Bytes).length ∧ 0 < 8 ∧ 7 < 8 := by decide

theorem test_witness_RandomizeInvolution :
    exec (.randomize [1, 2]) State.reset = .next (after (.randomize [1, 2]) State.reset) := rfl

theorem test_witness_PrnPeriod : (0 < 1 ∧ 1 < 255) ∧ (0 < 254 ∧ 254 < 255) := by decide

theorem test_witness_FramerPushCompletes : ([] : Bytes) = [] := rfl

/-- The three clauses: the marker's last byte, a full window, and a window still filling. -/
theorem test_witness_SearchingByte :
    (searching 0 .search).fmode = .searching ∧ (searching 0 .search).syncMarker = some mk
      ∧ ([0x1A, 0xCF, 0xFC] ++ [0x1D] : Bytes) = mk
      ∧ (([0x1A, 0xCF, 0xFC] ++ [0x1E] : Bytes) ≠ mk ∧ ([0x1A, 0xCF, 0xFC] ++ [0x1E] : Bytes).length = mk.length)
      ∧ (([] ++ [0x1A] : Bytes) ≠ mk ∧ ([] ++ [0x1A] : Bytes).length ≠ mk.length) := by decide

/-- The four clauses: the byte over MAXBUF, a byte kept, the last byte of a good unit, and of a bad one. -/
theorem test_witness_AccumulatingByte :
    State.reset.fmode = .accumulating
      ∧ (5 < ([0, 0, 0, 0, 0] ++ [0] : Bytes).length)
      ∧ (([0, 0, 0xC0, 0, 0] ++ [0] : Bytes).length ≤ State.reset.maxbuf.toNat
          ∧ ¬(([0, 0, 0xC0, 0, 0] ++ [0] : Bytes).length = 6 + (be16 ([0, 0, 0xC0, 0, 0] ++ [0]) 4).toNat + 1))
      ∧ (([0, 0, 0xC0, 0, 0, 0] ++ [0x41] : Bytes).length = 6 + (be16 ([0, 0, 0xC0, 0, 0, 0] ++ [0x41]) 4).toNat + 1)
      ∧ (spDecode ([0, 0, 0xC0, 0, 0, 0] ++ [0x41]) (withCfg 0).crcEn
          = .ok ({ hdr := { ver := 0, ptype := 0, shf := 0, apid := 0, seqf := 3, seqc := 0, pdl := 0 }, data := [0x41], crc := none }, 7))
      ∧ (spDecode ([0, 0, 0xC0, 0, 0, 0] ++ [0x41]) (withCfg 1).crcEn = .error .truncatedPacket) :=
  ⟨by decide, by decide, by decide +kernel, by decide, by rfl, by rfl⟩

theorem test_witness_ChunkIndependence :
    exec (.framerPush [1]) State.reset = .next (after (.framerPush [1]) State.reset)
      ∧ exec (.framerPush [2]) (after (.framerPush [1]) State.reset)
          = .next (after (.framerPush [2]) (after (.framerPush [1]) State.reset)) := ⟨rfl, rfl⟩

theorem test_witness_FramerResetResult : ([] : Bytes) = [] ∧ ([0] : Bytes) ≠ [] := by decide

theorem test_witness_FramerBounds :
    (searching 0 .search).Inv
      ∧ exec (.framerPush [1]) (searching 0 .search) = .next (after (.framerPush [1]) (searching 0 .search))
      ∧ (after (.framerPush [1]) (searching 0 .search)).syncMarker = some mk
      ∧ (after (.framerPush [1]) (searching 0 .search)).fmode = .searching
      ∧ (after (.framerPush [1]) State.reset).fmode = .accumulating := ⟨by decide, rfl, by decide⟩

/-- MAXBUF 6 with a header that declares 7 bytes, and MAXBUF 5. -/
theorem test_witness_OverflowDiscardsUnit :
    (let s : State := { State.reset with maxbuf := 6 }
     let u : Bytes := [0, 0, 0xC0, 0, 0, 0, 0x41]
     s.fmode = .accumulating ∧ s.fbuf = [] ∧ u.length = s.maxbuf.toNat + 1 ∧ 6 ≤ u.length
       ∧ s.maxbuf.toNat < 6 + (be16 u 4).toNat + 1 ∧ exec (.framerPush u) s = .next (after (.framerPush u) s))
      ∧ (let s : State := { State.reset with maxbuf := 5 }
         s.maxbuf.toNat < 6 ∧ exec (.framerPush [1]) s = .next (after (.framerPush [1]) s)) :=
  ⟨⟨by decide, by decide, by decide, by decide, by decide, rfl⟩, by decide, rfl⟩

/-- Two garbage bytes, the second the marker's first byte, then two packets. -/
theorem test_witness_GarbageThenPacketsAccumulate :
    (let s := searching 0 .accumulate
     let g : Bytes := [0, 0x1A]
     s.syncMarker = some mk ∧ mk ≠ [] ∧ s.params.rearm = .accumulate ∧ s.fmode = .searching ∧ s.fwin = [] ∧ s.fskip = 0
       ∧ (∀ i, i < g.length → ((g ++ mk).drop i).take mk.length ≠ mk)
       ∧ List.Forall₂ (fun p k => validPacket s.crcEn p k ∧ p.length ≤ s.maxbuf.toNat) [p2, p2] [p2Packet, p2Packet]
       ∧ exec (.framerPush (g ++ mk ++ [p2, p2].flatten)) s = .next (after (.framerPush (g ++ mk ++ [p2, p2].flatten)) s)) := by
  refine ⟨by decide, by decide, rfl, rfl, rfl, rfl, by decide, ?_, rfl⟩
  have h : validPacket (searching 0 .accumulate).crcEn p2 p2Packet ∧ p2.length ≤ (searching 0 .accumulate).maxbuf.toNat :=
    ⟨by rfl, by decide⟩
  exact .cons h (.cons h .nil)

theorem test_witness_GarbageThenMarkedPacketsSearch :
    (let s := searching 0 .search
     let g : Bytes := [0, 0x1A]
     s.syncMarker = some mk ∧ mk ≠ [] ∧ s.params.rearm = .search ∧ s.fmode = .searching ∧ s.fwin = [] ∧ s.fskip = 0
       ∧ (∀ i, i < g.length → ((g ++ mk).drop i).take mk.length ≠ mk)
       ∧ List.Forall₂ (fun p k => validPacket s.crcEn p k ∧ p.length ≤ s.maxbuf.toNat) (p2 :: [p2]) (p2Packet :: [p2Packet])
       ∧ exec (.framerPush (g ++ (p2 :: [p2]).flatMap (mk ++ ·))) s
           = .next (after (.framerPush (g ++ (p2 :: [p2]).flatMap (mk ++ ·))) s)) := by
  refine ⟨by decide, by decide, rfl, rfl, rfl, rfl, by decide, ?_, rfl⟩
  have h : validPacket (searching 0 .search).crcEn p2 p2Packet ∧ p2.length ≤ (searching 0 .search).maxbuf.toNat :=
    ⟨by rfl, by decide⟩
  exact .cons h (.cons h .nil)

/-- A marker of one byte and one of eight. -/
theorem test_witness_SetSyncConfiguresMarker :
    setSync State.reset [0x7E] = some [.wr 1 0x7E000000, .wr 2 0, .wr 0 0x0C]
      ∧ (setSync State.reset [1, 2, 3, 4, 5, 6, 7, 8]).isSome = true := by decide

theorem test_witness_AssemblyNamesCommands : (Instr.randomize [1]).operand = operandBytes [.bytes [1]] := by decide

theorem test_witness_StepKeepsInvariant :
    (pend (.wr 0 0x44) State.reset).Inv
      ∧ step (pend (.wr 0 0x44) State.reset) = .next (act (.wr 0 0x44) State.reset) := ⟨by decide, rfl⟩

theorem test_witness_CommandEndCodes :
    exec (.bchDecodeBlock []) State.reset = .next (after (.bchDecodeBlock []) State.reset) := rfl

/-- A failing CRC_VERIFY with two bytes, a failing PH_DECODE, and a failing BCH_ENCODE_BLOCK. -/
theorem test_witness_FailingCommandWrites :
    (exec (.crcVerify [0, 0]) State.reset = .next (after (.crcVerify [0, 0]) State.reset)
        ∧ (after (.crcVerify [0, 0]) State.reset).status.code ≠ .success)
      ∧ (exec (.phDecode []) State.reset = .next (after (.phDecode []) State.reset)
        ∧ (after (.phDecode []) State.reset).status.code ≠ .success)
      ∧ (exec (.bchEncodeBlock []) State.reset = .next (after (.bchEncodeBlock []) State.reset)
        ∧ (after (.bchEncodeBlock []) State.reset).status.code ≠ .success) :=
  ⟨⟨rfl, by decide +kernel⟩, ⟨rfl, by decide⟩, rfl, by decide⟩

theorem test_witness_CommandsKeepSetup :
    exec (.framerReset []) State.reset = .next (after (.framerReset []) State.reset) := rfl

theorem test_witness_ResultRegistersFrame :
    exec (.spEncode [1]) State.reset = .next (after (.spEncode [1]) State.reset) ∧ State.reset.crcEn = false
      ∧ (∀ inp, Instr.spEncode [1] ≠ .phDecode inp) ∧ (∀ inp, Instr.spEncode [1] ≠ .spDecode inp)
      ∧ (∀ inp, Instr.spEncode [1] ≠ .crcCompute inp) ∧ (∀ inp, Instr.spEncode [1] ≠ .crcVerify inp)
      ∧ exec (.randomize [1]) (withCfg 1) = .next (after (.randomize [1]) (withCfg 1))
      ∧ (∀ inp, Instr.randomize [1] ≠ .spEncode inp) ∧ (∀ inp, Instr.randomize [1] ≠ .spDecode inp) :=
  ⟨rfl, by decide, by simp, by simp, by simp, by simp, rfl, by simp, by simp⟩

theorem test_witness_ResultBuffersRewritten :
    exec (.phDecode []) State.reset = .next (after (.phDecode []) State.reset)
      ∧ (∀ inp, Instr.phDecode [] ≠ .framerPush inp) ∧ (after (.phDecode []) State.reset).status.code ≠ .success
      ∧ (∃ inp, Instr.phDecode [] = .crcVerify inp ∨ Instr.phDecode [] = .phDecode inp ∨ Instr.phDecode [] = .framerPush inp
          ∨ Instr.phDecode [] = .framerReset inp) :=
  ⟨rfl, by simp, by decide, [], .inr (.inl rfl)⟩

theorem test_witness_CodecAndFramerApart :
    (exec (.phDecode []) State.reset = .next (after (.phDecode []) State.reset) ∧ isFramerCommand (.phDecode []) = false)
      ∧ (exec (.framerPush [1]) State.reset = .next (after (.framerPush [1]) State.reset)
        ∧ isFramerCommand (.framerPush [1]) = true) := ⟨⟨rfl, rfl⟩, rfl, rfl⟩

/-- Two states that differ in everything SP_ENCODE does not name; and the premises of `sameWritten`: CRC_VERIFY with two
bytes, and successes of PH_DECODE and, with CRC_EN, of SP_ENCODE and SP_DECODE. -/
theorem test_witness_CodecResultIsFunctional :
    (let s := withCfg 1
     let t := { searching 3 .accumulate with hdr := { State.reset.hdr with pdl := 9 }, crcv := 5, out := [1] }
     isFramerCommand (.spEncode [1]) = false ∧ readsSame (.spEncode [1]) s t
       ∧ exec (.spEncode [1]) s = .next (after (.spEncode [1]) s) ∧ exec (.spEncode [1]) t = .next (after (.spEncode [1]) t)
       ∧ (after (.spEncode [1]) s).status.code = .success ∧ (after (.spEncode [1]) s).crcEn = true)
      ∧ 2 ≤ ([0xFF, 0xFF] : Bytes).length
      ∧ (after (.phDecode [1, 2, 3, 4, 5, 6]) State.reset).status.code = .success
      ∧ (let u := after (.spDecode (after (.spEncode [1]) (withCfg 1)).out) (withCfg 1)
         u.status.code = .success ∧ u.crcEn = true) :=
  ⟨⟨rfl, ⟨by decide, by decide, by decide⟩, rfl, rfl, by decide +kernel, by decide +kernel⟩, by decide,
    by decide +kernel, by decide +kernel⟩

theorem test_witness_OpenParametersFixed :
    step (pend .reset smallMax) = .next (act .reset smallMax) := rfl

end Sys2Proof.Tests
end

section
/-! The host's `WR` (10_state.md R39, R41): the facts about register access every statement of this family rests on. -/

namespace Sys2Proof.Machine

/-! ### The step on a pending `WR`, and a register read through its number -/

theorem step_of_pending_wr {s : State} {n : BitVec 8} {v : Word} {rest : List HostAction}
    (h : s.pending = .wr n v :: rest) : step s = .next (writeReg n v { s with pending := rest }) := by
  rw [step, h]
  rfl

theorem readReg_of_regOfNum {n : BitVec 8} {r : Reg} (h : regOfNum n = some r) (s : State) :
    readReg s n = regValue s r := by
  rw [readReg, h]

theorem readReg_of_reserved {n : BitVec 8} (h : regOfNum n = none) (s : State) : readReg s n = 0 := by
  rw [readReg, h]

/-- The reserved numbers of R23. -/
theorem regOfNum_eq_none_iff :
    ∀ n : BitVec 8, regOfNum n = none ↔ (4 ≤ n.toNat ∧ n.toNat ≤ 7) ∨ 0x16 ≤ n.toNat := by
  decide +kernel

theorem Reg.isConfig_iff (r : Reg) : r.isConfig = true ↔ r.num.toNat ≤ 3 := by
  cases r <;> decide

/-! ### Which writes are rejected (R39) -/

theorem fits_eq_false_iff (v : Word) (k : Nat) : fits v k = false ↔ v.toNat ≥ 2 ^ k := by
  simp [fits]

/-- The illegal values of CFG (R24) in the numbers of R39. -/
theorem writeLegal_cfg_eq_false_iff (v : Word) :
    writeLegal .cfg v = false ↔
      v.toNat / 2 ^ 7 ≠ 0 ∨ v.toNat / 2 ^ 3 % 16 > 8 ∨ (v.toNat / 2 ^ 2 % 2 = 1 ∧ v.toNat / 2 ^ 3 % 16 = 0) := by
  have hlen : (v.extractLsb' 3 4).toNat = v.toNat / 2 ^ 3 % 16 := by
    simp [BitVec.extractLsb'_toNat, Nat.shiftRight_eq_div_pow]
  have hres : (v.extractLsb' 7 25).toNat = v.toNat / 2 ^ 7 := by
    have := v.isLt
    simp only [BitVec.extractLsb'_toNat, Nat.shiftRight_eq_div_pow]
    omega
  have hen : v.getLsbD 2 = decide (v.toNat / 2 ^ 2 % 2 = 1) := Nat.testBit_eq_decide_div_mod_eq
  simp only [writeLegal, ← BitVec.toNat_inj, hlen, hres, hen, BitVec.ofNat_eq_ofNat, BitVec.toNat_ofNat, Nat.zero_mod,
    Bool.and_eq_false_iff, Bool.not_eq_false', Bool.and_eq_true, decide_eq_false_iff_not, decide_eq_true_eq, or_assoc,
    not_le, ne_eq, gt_iff_lt]

/-- R39's list, register by register, is where `writeLegal` says no. -/
theorem writeRejected_num_iff (r : Reg) (v : Word) : writeRejected r.num v ↔ writeLegal r v = false := by
  cases r with
  | cfg => simp [writeLegal_cfg_eq_false_iff, writeRejected, Reg.num]
  | shlen => simp [writeLegal, writeRejected, Reg.num]
  | _ => simp [writeLegal, fits_eq_false_iff, writeRejected, Reg.num]

theorem writeRejected_of_reserved {n : BitVec 8} (h : regOfNum n = none) (v : Word) : writeRejected n v := by
  rcases (regOfNum_eq_none_iff n).mp h with h | h
  · exact .inl h
  · exact .inr (.inl (by omega))

theorem writeReg_of_rejected {n : BitVec 8} {v : Word} (h : writeRejected n v) (s : State) :
    writeReg n v s = rejectWrite s := by
  rcases writeReg_cases n v s with hrej | ⟨r, hr, hlegal, -⟩
  · exact hrej
  · rw [← num_of_regOfNum n r hr, writeRejected_num_iff, hlegal] at h
    exact absurd h (by decide)

/-- A write R39 does not list names an assigned register by its number and a legal value of it. -/
theorem exists_legal_of_not_rejected {n : BitVec 8} {v : Word} (h : ¬writeRejected n v) :
    ∃ r : Reg, r.num = n ∧ writeLegal r v = true := by
  cases hr : regOfNum n with
  | none => exact absurd (writeRejected_of_reserved hr v) h
  | some r =>
    have hn := num_of_regOfNum n r hr
    rw [← hn, writeRejected_num_iff, Bool.not_eq_false] at h
    exact ⟨r, hn, h⟩

theorem writeReg_num_of_legal {r : Reg} {v : Word} (h : writeLegal r v = true) (s : State) :
    writeReg r.num v s = acceptWrite r v s := by
  simp [writeReg, h]

/-! ### What an accepted write reads as, and what it leaves -/

/-- Every register is a field of its own (R23): where the fields meet, the two registers are the same one. -/
theorem regValue_storeReg_of_ne {q r : Reg} (h : q ≠ r) (v : Word) (s : State) :
    regValue (storeReg r v s) q = regValue s q := by
  cases r <;> cases q <;> trivial

/-- Resetting the framer leaves every register but FMODE, FBUFLEN and FSKIP. -/
theorem regValue_framerClear {q : Reg} (h : ¬(0x13 ≤ q.num.toNat ∧ q.num.toNat ≤ 0x15)) (s : State) :
    regValue (framerClear s) q = regValue s q := by
  cases q with
  | fmode => exact absurd (by decide) h
  | fbuflen => exact absurd (by decide) h
  | fskip => exact absurd (by decide) h
  | _ => rfl

/-- No framer register can be written. -/
theorem num_lt_of_writeLegal {r : Reg} {v : Word} (h : writeLegal r v = true) : r.num.toNat < 0x10 := by
  by_contra hge
  have hrej : writeRejected r.num v := .inr (.inl (by omega))
  rw [writeRejected_num_iff, h] at hrej
  exact absurd hrej (by decide)

theorem regValue_acceptWrite_self {r : Reg} {v : Word} (h : writeLegal r v = true) (s : State) :
    regValue (acceptWrite r v s) r = v := by
  cases hc : r.isConfig with
  | true =>
    have hlt := num_lt_of_writeLegal h
    rw [acceptWrite_config hc, regValue_framerClear (by omega), regValue_storeReg h]
  | false => rw [acceptWrite_other hc, regValue_storeReg h]

theorem regValue_acceptWrite_of_ne {q r : Reg} (hne : q ≠ r)
    (hf : ¬(r.num.toNat ≤ 3 ∧ 0x13 ≤ q.num.toNat ∧ q.num.toNat ≤ 0x15)) (v : Word) (s : State) :
    regValue (acceptWrite r v s) q = regValue s q := by
  cases hc : r.isConfig with
  | true =>
    have hle := r.isConfig_iff.mp hc
    rw [acceptWrite_config hc, regValue_framerClear (by omega), regValue_storeReg_of_ne hne]
  | false => rw [acceptWrite_other hc, regValue_storeReg_of_ne hne]

theorem readReg_acceptWrite_of_ne {r : Reg} {n : BitVec 8} (hne : n ≠ r.num)
    (hf : ¬(r.num.toNat ≤ 3 ∧ 0x13 ≤ n.toNat ∧ n.toNat ≤ 0x15)) (v : Word) (s : State) :
    readReg (acceptWrite r v s) n = readReg s n := by
  cases hq : regOfNum n with
  | none => rw [readReg_of_reserved hq, readReg_of_reserved hq]
  | some q =>
    obtain rfl := num_of_regOfNum n q hq
    have hqr : q ≠ r := fun h => hne (congrArg Reg.num h)
    rw [readReg_of_regOfNum hq, readReg_of_regOfNum hq, regValue_acceptWrite_of_ne hqr hf]

/-- An accepted write changes no result buffer, no STATUS and none of the model's own fields. -/
theorem acceptWrite_frame (r : Reg) (v : Word) (s : State) :
    (acceptWrite r v s).status = s.status ∧ (acceptWrite r v s).out = s.out ∧ (acceptWrite r v s).evq = s.evq
      ∧ (acceptWrite r v s).params = s.params ∧ (acceptWrite r v s).rdValue = s.rdValue
      ∧ (acceptWrite r v s).pending = s.pending := by
  cases hc : r.isConfig with
  | true => simp [acceptWrite_config hc, storeReg_frame]
  | false => simp [acceptWrite_other hc, storeReg_frame]

theorem sameFramer_storeReg (r : Reg) (v : Word) (s : State) : sameFramer s (storeReg r v s) := by
  simp [sameFramer, storeReg_frame]

/-! ### FBUFLEN (R36) -/

/-- FBUF fits MAXBUF, a 32-bit register, so its length is not cut (44_stream_framer.md R242). -/
theorem fbuflen_toNat_of_accumulating {s : State} (hinv : s.Inv) (hm : s.fmode = .accumulating) :
    s.fbuflen.toNat = s.fbuf.length := by
  obtain ⟨-, -, -, hframer, -⟩ := hinv
  have hle : s.fbuf.length ≤ s.maxbuf.toNat := by
    simp [State.framerLegal, hm] at hframer
    omega
  have := s.maxbuf.isLt
  simp [State.fbuflen, hm]
  omega

/-- FWIN is shorter than the sync marker, so its length is not cut (R242). -/
theorem fbuflen_toNat_of_searching {s : State} (hinv : s.Inv) (hm : s.fmode = .searching) :
    s.fbuflen.toNat = s.fwin.length := by
  obtain ⟨-, -, -, hframer, -⟩ := hinv
  have hlt : s.fwin.length < s.syncLen := by
    simp [State.framerLegal, hm] at hframer
    omega
  have : s.syncLen < 2 ^ 4 := (syncLenField s.cfg).isLt
  simp [State.fbuflen, hm]
  omega

/-! ### The statements of 10_state.md on `WR` and on reset -/

/-- Settles O7: a write R39 does not list is `acceptWrite` of the register with that number. -/
theorem writeRejectedOrStored : Obligations.WriteRejectedOrStored := by
  intro s n v rest hp
  rw [step_of_pending_wr hp]
  constructor
  · intro hrej
    rw [writeReg_of_rejected hrej]
    rfl
  · intro hacc
    obtain ⟨r, rfl, hlegal⟩ := exists_legal_of_not_rejected hacc
    rw [writeReg_num_of_legal hlegal]
    obtain ⟨hstatus, hout, hevq, hparams, hrd, hpending⟩ := acceptWrite_frame r v { s with pending := rest }
    refine ⟨_, rfl, ?_, hstatus, ?_, hout, hevq, hparams, hrd, hpending⟩
    · rw [readReg_of_regOfNum (regOfNum_num r), regValue_acceptWrite_self hlegal]
    · intro m hne hf
      rw [readReg_acceptWrite_of_ne hne hf]
      rfl

/-- Settles O8: `acceptWrite` ends in `framerClear` for a configuration register, and is `storeReg` for any other. -/
theorem configWriteResetsFramer : Obligations.ConfigWriteResetsFramer := by
  intro s n v rest hp hacc
  obtain ⟨r, rfl, hlegal⟩ := exists_legal_of_not_rejected hacc
  rw [step_of_pending_wr hp, writeReg_num_of_legal hlegal]
  refine ⟨_, rfl, fun hle => ?_, fun hgt => ?_⟩
  · rw [acceptWrite_config (r.isConfig_iff.mpr hle)]
    exact ⟨rfl, rfl, rfl, rfl⟩
  · have hc : r.isConfig = false := by
      rw [← Bool.not_eq_true, r.isConfig_iff]
      omega
    rw [acceptWrite_other hc]
    exact sameFramer_storeReg r v { s with pending := rest }

/-- Settles O11: number 0x14 reads `fbuflen`, whose length the invariant bounds, and is RO. -/
theorem fbuflenReadsHeldBytes : Obligations.FbuflenReadsHeldBytes := by
  have hread (s : State) : readReg s 0x14 = s.fbuflen := readReg_of_regOfNum (r := .fbuflen) rfl s
  refine ⟨fun s hinv => ⟨fun hm => ?_, fun hm => ?_⟩, rfl, fun v s => ?_⟩
  · rw [hread, fbuflen_toNat_of_accumulating hinv hm]
  · rw [hread, fbuflen_toNat_of_searching hinv hm]
  · exact writeReg_of_rejected (.inr (.inl (by decide))) s

/-- Settles O13: a number is reserved, or the number of one of the eighteen registers. -/
theorem resetValuesRead : Obligations.ResetValuesRead := by
  refine ⟨fun n => ?_, rfl, rfl, rfl, rfl⟩
  cases hr : regOfNum n with
  | none =>
    have h3 : n ≠ 0x03 := by rintro rfl; cases hr
    have h13 : n ≠ 0x13 := by rintro rfl; cases hr
    rw [readReg_of_reserved hr, if_neg h3, if_neg h13]
  | some r =>
    obtain rfl := num_of_regOfNum n r hr
    cases r <;> rfl

end Sys2Proof.Machine
end

section
/-! The CRC engine (40_crc.md): the two bytes of a half word, the eight shifts of one byte, and the CRC commands. -/

namespace Sys2Proof.Machine

/-! ### The two bytes of a half word (R12) -/

theorem toNat_append_byte (hi lo : Byte) : (hi ++ lo).toNat = hi.toNat * 256 + lo.toNat := by
  rw [BitVec.toNat_append, ← Nat.shiftLeft_add_eq_or_of_lt lo.isLt, Nat.shiftLeft_eq]

theorem bytes16_eq_ofNat (v : Half) : bytes16 v = [BitVec.ofNat 8 (v.toNat / 256), BitVec.ofNat 8 (v.toNat % 256)] := by
  have hhi : v.extractLsb' 8 8 = BitVec.ofNat 8 (v.toNat / 256) := by
    apply BitVec.eq_of_toNat_eq
    simp [Nat.shiftRight_eq_div_pow]
  have hlo : v.extractLsb' 0 8 = BitVec.ofNat 8 (v.toNat % 256) := by
    apply BitVec.eq_of_toNat_eq
    simp
  rw [bytes16, hhi, hlo]

/-- A half word less its high byte is its low byte. -/
theorem xor_highByte (v : Half) : v ^^^ ((v.extractLsb' 8 8).setWidth 16 <<< 8) = (v.extractLsb' 0 8).setWidth 16 := by
  apply BitVec.eq_of_getLsbD_eq
  intro i hi
  by_cases h8 : i < 8
  · simp [hi, h8]
  · have hadd : 8 + (i - 8) = i := by omega
    have hlt : i - 8 < 8 := by omega
    simp [hi, h8, hadd, hlt]

/-! ### The shifts on one byte (R120) -/

theorem crcShift_of_msb_false {p : CrcParams} {c : Half} (h : c.msb = false) : crcShift p c = c <<< 1 := by
  simp [crcShift, h]

/-- A byte in the low half is not reduced before it has left that half. -/
theorem crcShifts_lowByte (p : CrcParams) (b : Byte) {n : Nat} (hn : n ≤ 8) :
    Nat.repeat (crcShift p) n (b.setWidth 16) = b.setWidth 16 <<< n := by
  induction n with
  | zero => simp [Nat.repeat]
  | succ n ih =>
    have hmsb : (b.setWidth 16 <<< n).msb = false := by
      have hbit : b.getLsbD (15 - n) = false := BitVec.getLsbD_of_ge b _ (by omega)
      simp [BitVec.msb_eq_getLsbD_last, hbit]
    rw [Nat.repeat, ih (by omega), crcShift_of_msb_false hmsb, ← BitVec.shiftLeft_add]

/-- A register takes its own high byte: the low byte moves up. -/
theorem crcByte_own_highByte (c : Half) :
    crcByte consts.crc c (c.extractLsb' 8 8) = (c.extractLsb' 0 8).setWidth 16 <<< 8 := by
  rw [crcByte_eq, xor_highByte, crcShifts_lowByte _ _ le_rfl]

/-- A register that holds one byte in its high half takes that byte: nothing is left. -/
theorem crcByte_cancel (b : Byte) : crcByte consts.crc (b.setWidth 16 <<< 8) b = 0 := by
  rw [crcByte_eq, BitVec.xor_self]
  exact crcShifts_lowByte consts.crc 0 le_rfl

/-! ### The CRC commands, CRC_VERIFY by its operand (R122, R123) -/

theorem exec_crcCompute (inp : Bytes) (s : State) :
    exec (.crcCompute inp) s = .next (finish (bytes16 (crc16 inp)) { s with crcv := crc16 inp }) := rfl

theorem exec_crcVerify (inp : Bytes) (s : State) : exec (.crcVerify inp) s = execCrcVerify inp s := rfl

theorem execCrcVerify_of_short {inp : Bytes} (h : inp.length < 2) (s : State) :
    execCrcVerify inp s = .next (raise .checksumMismatch s) := if_pos h

theorem execCrcVerify_append (body : Bytes) (hi lo : Byte) (s : State) :
    execCrcVerify (body ++ [hi, lo]) s =
      if crc16 body = hi ++ lo then .next (finish [] { s with crcv := crc16 body })
      else .next (raise .checksumMismatch { s with crcv := crc16 body }) := by
  have hlen : (body ++ [hi, lo]).length - 2 = body.length := by simp
  have hshort : ¬ (body ++ [hi, lo]).length < 2 := by simp
  have htrailer : be16 (body ++ [hi, lo]) body.length = hi ++ lo := be16_append_right body [hi, lo] 0
  simp only [execCrcVerify, if_neg hshort, hlen, memRead_prefix, htrailer, ne_eq, ite_not]

/-! ### The statements of 40_crc.md -/

/-- Settles O14: the command finishes with `bytes16` of the CRC, which is its quotient and remainder by 256. -/
theorem crcComputeResult : Obligations.CrcComputeResult := by
  intro inp s
  rw [exec_crcCompute, bytes16_eq_ofNat]
  rfl

/-- Settles O15: the trailer is compared as a half word, and two half words are equal if their values are. -/
theorem crcVerifyResult : Obligations.CrcVerifyResult := by
  refine ⟨fun body hi lo s => ?_, fun inp s hlen => execCrcVerify_of_short hlen s⟩
  rw [exec_crcVerify, execCrcVerify_append, ← toNat_append_byte]
  by_cases h : crc16 body = hi ++ lo
  · rw [if_pos h, if_pos (congrArg BitVec.toNat h)]
    rfl
  · rw [if_neg h, if_neg (mt BitVec.eq_of_toNat_eq h)]
    rfl

/-- Settles O16: the first trailer byte clears the high half of the CRC, the second what is left. -/
theorem crcZeroResidue : Obligations.CrcZeroResidue := by
  refine ⟨fun s => ?_, by decide, by decide +kernel⟩
  calc crc16 (s ++ bytes16 (crc16 s))
      = crcByte consts.crc (crcByte consts.crc (crc16 s) ((crc16 s).extractLsb' 8 8)) ((crc16 s).extractLsb' 0 8) :=
        crc16_append s (bytes16 (crc16 s))
    _ = 0 := by rw [crcByte_own_highByte, crcByte_cancel]

end Sys2Proof.Machine
end

section
/-! The primary header codec (41_primary_header.md): the header words are their fields side by side (30_encoding.md R88), so
packing and unpacking are multiplication and division by powers of two on the words. -/

namespace Sys2Proof.Machine

/-! ### The header words in numbers (R88, R140) -/

theorem toNat_append_eq_add {m n : Nat} (x : BitVec m) (y : BitVec n) : (x ++ y).toNat = x.toNat * 2 ^ n + y.toNat := by
  rw [BitVec.toNat_append, ← Nat.shiftLeft_add_eq_or_of_lt y.isLt, Nat.shiftLeft_eq]

/-- A field moved up by the width of the next one leaves exactly the bits of the next one free. -/
theorem setWidth_shiftLeft_or {m n : Nat} (w : Nat) (x : BitVec m) (y : BitVec n) :
    x.setWidth w <<< n ||| y.setWidth w = (x ++ y).setWidth w := by
  apply BitVec.eq_of_getLsbD_eq
  intro i hi
  by_cases hn : i < n
  · simp [BitVec.getLsbD_append, hi, hn]
  · have hy : y.getLsbD i = false := BitVec.getLsbD_of_ge y i (not_lt.mp hn)
    simp [BitVec.getLsbD_append, hi, hn, hy]

theorem headerWord0_eq_append (h : Header) : headerWord0 h = h.ver ++ h.ptype ++ h.shf ++ h.apid := by
  calc headerWord0 h
      = ((h.ver.setWidth 16 <<< 1 ||| h.ptype.setWidth 16) <<< 1 ||| h.shf.setWidth 16) <<< 11
          ||| h.apid.setWidth 16 := by
        simp only [headerWord0, BitVec.shiftLeft_or_distrib, ← BitVec.shiftLeft_add]
    _ = h.ver ++ h.ptype ++ h.shf ++ h.apid := by
        simp only [setWidth_shiftLeft_or, BitVec.setWidth_eq]

theorem headerWord1_eq_append (h : Header) : headerWord1 h = h.seqf ++ h.seqc := by
  rw [headerWord1, setWidth_shiftLeft_or, BitVec.setWidth_eq]

theorem headerWord0_toNat (h : Header) :
    (headerWord0 h).toNat = ((h.ver.toNat * 2 + h.ptype.toNat) * 2 + h.shf.toNat) * 2048 + h.apid.toNat := by
  simp only [headerWord0_eq_append, toNat_append_eq_add, Nat.reducePow]

theorem headerWord1_toNat (h : Header) : (headerWord1 h).toNat = h.seqf.toNat * 16384 + h.seqc.toNat := by
  simp only [headerWord1_eq_append, toNat_append_eq_add, Nat.reducePow]

theorem extractLsb'_eq_ofNat {n : Nat} (k len : Nat) (x : BitVec n) :
    x.extractLsb' k len = BitVec.ofNat len (x.toNat / 2 ^ k) := by
  rw [BitVec.extractLsb', Nat.shiftRight_eq_div_pow]

/-! ### Packing (R140) -/

/-- R88's byte terms of a header. -/
theorem phPack_eq_ofNat (h : Header) :
    phPack h =
      [BitVec.ofNat 8 (h.ver.toNat * 32 + h.ptype.toNat * 16 + h.shf.toNat * 8 + h.apid.toNat / 256),
        BitVec.ofNat 8 (h.apid.toNat % 256),
        BitVec.ofNat 8 (h.seqf.toNat * 64 + h.seqc.toNat / 256), BitVec.ofNat 8 (h.seqc.toNat % 256),
        BitVec.ofNat 8 (h.pdl.toNat / 256), BitVec.ofNat 8 (h.pdl.toNat % 256)] := by
  have hi0 : (headerWord0 h).toNat / 256
      = h.ver.toNat * 32 + h.ptype.toNat * 16 + h.shf.toNat * 8 + h.apid.toNat / 256 := by
    rw [headerWord0_toNat]; omega
  have lo0 : (headerWord0 h).toNat % 256 = h.apid.toNat % 256 := by
    rw [headerWord0_toNat]; omega
  have hi1 : (headerWord1 h).toNat / 256 = h.seqf.toNat * 64 + h.seqc.toNat / 256 := by
    rw [headerWord1_toNat]; omega
  have lo1 : (headerWord1 h).toNat % 256 = h.seqc.toNat % 256 := by
    rw [headerWord1_toNat]; omega
  simp only [phPack, bytes16_eq_ofNat, hi0, lo0, hi1, lo1, headerWord2, List.cons_append, List.nil_append]

theorem phPack_length (h : Header) : (phPack h).length = 6 := rfl

theorem be16_phPack (h : Header) :
    be16 (phPack h) 0 = headerWord0 h ∧ be16 (phPack h) 2 = headerWord1 h ∧ be16 (phPack h) 4 = headerWord2 h :=
  ⟨be16_bytes16 (headerWord0 h), be16_bytes16 (headerWord1 h), be16_bytes16 (headerWord2 h)⟩

theorem bytes16_append (hi lo : Byte) : bytes16 (hi ++ lo) = [hi, lo] := by
  rw [bytes16, BitVec.extractLsb'_append_eq_left, BitVec.extractLsb'_append_eq_of_add_le le_rfl,
    BitVec.extractLsb'_eq_self]

/-! ### Unpacking (R141) -/

theorem phUnpack_eq_ofNat (b : Bytes) :
    phUnpack b =
      { ver := BitVec.ofNat 3 ((be16 b 0).toNat / 8192), ptype := BitVec.ofNat 1 ((be16 b 0).toNat / 4096)
        shf := BitVec.ofNat 1 ((be16 b 0).toNat / 2048), apid := BitVec.ofNat 11 (be16 b 0).toNat
        seqf := BitVec.ofNat 2 ((be16 b 2).toNat / 16384), seqc := BitVec.ofNat 14 (be16 b 2).toNat
        pdl := be16 b 4 } := by
  simp only [phUnpack, extractLsb'_eq_ofNat, Nat.reducePow, Nat.div_one]

/-- R88's byte terms of the fields. -/
theorem phUnpack_of_bytes (b0 b1 b2 b3 b4 b5 : Byte) (more : Bytes) :
    phUnpack ([b0, b1, b2, b3, b4, b5] ++ more) =
      { ver := BitVec.ofNat 3 (b0.toNat / 32), ptype := BitVec.ofNat 1 (b0.toNat / 16)
        shf := BitVec.ofNat 1 (b0.toNat / 8), apid := BitVec.ofNat 11 (b0.toNat % 8 * 256 + b1.toNat)
        seqf := BitVec.ofNat 2 (b2.toNat / 64), seqc := BitVec.ofNat 14 (b2.toNat % 64 * 256 + b3.toNat)
        pdl := BitVec.ofNat 16 (b4.toNat * 256 + b5.toNat) } := by
  have hw0 : (be16 ([b0, b1, b2, b3, b4, b5] ++ more) 0).toNat = b0.toNat * 256 + b1.toNat := toNat_append_byte b0 b1
  have hw1 : (be16 ([b0, b1, b2, b3, b4, b5] ++ more) 2).toNat = b2.toNat * 256 + b3.toNat := toNat_append_byte b2 b3
  have hw2 : (be16 ([b0, b1, b2, b3, b4, b5] ++ more) 4).toNat = b4.toNat * 256 + b5.toNat := toNat_append_byte b4 b5
  have := b1.isLt
  have := b3.isLt
  have := b4.isLt
  have := b5.isLt
  rw [phUnpack_eq_ofNat, Header.mk.injEq]
  simp only [← BitVec.toNat_inj, BitVec.toNat_ofNat, hw0, hw1, hw2]
  refine ⟨?_, ?_, ?_, ?_, ?_, ?_, ?_⟩ <;> omega

/-! ### The two are inverse (R144) -/

theorem phUnpack_phPack (h : Header) : phUnpack (phPack h) = h := by
  obtain ⟨hw0, hw1, hw2⟩ := be16_phPack h
  have := h.ver.isLt
  have := h.ptype.isLt
  have := h.shf.isLt
  have := h.apid.isLt
  have := h.seqf.isLt
  have := h.seqc.isLt
  rw [phUnpack_eq_ofNat, hw0, hw1, hw2, Header.mk.injEq]
  simp only [← BitVec.toNat_inj, BitVec.toNat_ofNat, headerWord0_toNat, headerWord1_toNat, headerWord2,
    and_true]
  refine ⟨?_, ?_, ?_, ?_, ?_, ?_⟩ <;> omega

theorem headerWord0_phUnpack (b : Bytes) : headerWord0 (phUnpack b) = be16 b 0 := by
  have := (be16 b 0).isLt
  apply BitVec.eq_of_toNat_eq
  simp only [headerWord0_toNat, phUnpack_eq_ofNat, BitVec.toNat_ofNat]
  omega

theorem headerWord1_phUnpack (b : Bytes) : headerWord1 (phUnpack b) = be16 b 2 := by
  have := (be16 b 2).isLt
  apply BitVec.eq_of_toNat_eq
  simp only [headerWord1_toNat, phUnpack_eq_ofNat, BitVec.toNat_ofNat]
  omega

theorem headerWord2_phUnpack (b : Bytes) : headerWord2 (phUnpack b) = be16 b 4 := rfl

theorem phPack_phUnpack_of_bytes (b0 b1 b2 b3 b4 b5 : Byte) (more : Bytes) :
    phPack (phUnpack ([b0, b1, b2, b3, b4, b5] ++ more)) = [b0, b1, b2, b3, b4, b5] := by
  rw [phPack, headerWord0_phUnpack, headerWord1_phUnpack, headerWord2_phUnpack]
  calc bytes16 (b0 ++ b1) ++ bytes16 (b2 ++ b3) ++ bytes16 (b4 ++ b5)
      = [b0, b1, b2, b3, b4, b5] := by simp only [bytes16_append, List.cons_append, List.nil_append]

/-- The six bytes of a header, and what follows them. -/
theorem exists_header_bytes {b : Bytes} (hb : 6 ≤ b.length) :
    ∃ b0 b1 b2 b3 b4 b5 more, b = [b0, b1, b2, b3, b4, b5] ++ more := by
  match b, hb with
  | b0 :: b1 :: b2 :: b3 :: b4 :: b5 :: more, _ => exact ⟨b0, b1, b2, b3, b4, b5, more, rfl⟩

/-! ### The commands (R142, R143) -/

theorem exec_phEncode_nil (s : State) : exec (.phEncode []) s = .next (finish (phPack s.hdr) s) := rfl

theorem exec_phEncode_of_ne_nil {inp : Bytes} (h : inp ≠ []) (s : State) :
    exec (.phEncode inp) s = .next (raise .illegalCommand s) :=
  if_pos (mt List.length_eq_zero_iff.mp h)

theorem exec_phDecode_of_short {inp : Bytes} (h : inp.length < 6) (s : State) :
    exec (.phDecode inp) s = .next (raiseDecode .truncatedHeader s) := if_pos h

theorem exec_phDecode_of_long {inp : Bytes} (h : 6 ≤ inp.length) (s : State) :
    exec (.phDecode inp) s =
      .next (finish [] { s with hdr := phUnpack (memRead inp 0 6), consumed := 6 }) := if_neg (not_lt.mpr h)

/-! ### The statements of 41_primary_header.md -/

/-- Settles O18: the command finishes with `phPack` of the field registers, whose bytes are R88's terms. -/
theorem phEncodeResult : Obligations.PhEncodeResult := by
  refine fun inp s => ⟨?_, fun hne => exec_phEncode_of_ne_nil hne s⟩
  rintro rfl
  rw [exec_phEncode_nil, phPack_eq_ofNat]
  rfl

/-- Settles O19: reading six bytes of the operand leaves `phUnpack` exactly the bytes R88's terms speak of. -/
theorem phDecodeResult : Obligations.PhDecodeResult := by
  refine ⟨fun b0 b1 b2 b3 b4 b5 more s => ?_, fun inp s hlen => exec_phDecode_of_short hlen s⟩
  have hlen : 6 ≤ ([b0, b1, b2, b3, b4, b5] ++ more).length := by simp
  have hsix : memRead ([b0, b1, b2, b3, b4, b5] ++ more) 0 6 = [b0, b1, b2, b3, b4, b5] ++ [] := rfl
  rw [exec_phDecode_of_long hlen, hsix, phUnpack_of_bytes]
  rfl

/-- Settles O20: both ways the words are the same, and the six bytes are the words' bytes. -/
theorem headerPackUnpackInverse : Obligations.HeaderPackUnpackInverse := by
  refine ⟨fun h => ⟨phPack_length h, phUnpack_phPack h⟩, fun b hb => ?_⟩
  obtain ⟨b0, b1, b2, b3, b4, b5, more, rfl⟩ := exists_header_bytes hb
  exact phPack_phUnpack_of_bytes b0 b1 b2 b3 b4 b5 more

end Sys2Proof.Machine
end

section
/-! The space packet codec (42_space_packet.md): the packet of a header and a data field, what SP_ENCODE and SP_DECODE do on
every operand, and the decoder on that packet. -/

namespace Sys2Proof.Machine

/-! ### The packet of a header and a data field (R161) -/

/-- The CRC trailer of a packet whose other bytes are `body` (R161). -/
def spTrailer (crcEn : Bool) (body : Bytes) : Bytes := if crcEn then bytes16 (crc16 body) else []

/-- The packet with this header and this undivided data field (R161). -/
def spPacket (crcEn : Bool) (h : Header) (data : Bytes) : Bytes :=
  (phPack h ++ data) ++ spTrailer crcEn (phPack h ++ data)

theorem spTrailer_length (crcEn : Bool) (body : Bytes) : (spTrailer crcEn body).length = trailerLen crcEn := by
  cases crcEn <;> rfl

theorem spPacket_length (crcEn : Bool) (h : Header) (data : Bytes) :
    (spPacket crcEn h data).length = 6 + (data.length + trailerLen crcEn) := by
  rw [spPacket, List.length_append, List.length_append, spTrailer_length, phPack_length, Nat.add_assoc]

/-- A packet is its header, its data field and its trailer, in front of whatever follows it. -/
theorem spPacket_append (crcEn : Bool) (h : Header) (data more : Bytes) :
    spPacket crcEn h data ++ more = phPack h ++ (data ++ (spTrailer crcEn (phPack h ++ data) ++ more)) := by
  simp only [spPacket, List.append_assoc]

theorem be16_phPack_append (h : Header) (v : Bytes) : be16 (phPack h ++ v) 4 = h.pdl := by
  obtain ⟨-, -, hpdl⟩ := be16_phPack h
  rw [be16_append_left _ _ _ (by rw [phPack_length]; omega), hpdl, headerWord2]

/-! ### SP_ENCODE on every operand (R160, R161) -/

/-- The trailing size `T` of R160. -/
def trailingSize (inp : Bytes) (s : State) : Nat := inp.length + trailerLen s.crcEn

/-- The field registers after SP_ENCODE, which are the header it writes (R161). -/
def encodedHeader (inp : Bytes) (s : State) : Header :=
  { s.hdr with pdl := BitVec.ofNat 16 (trailingSize inp s - 1) }

/-- The state after a successful SP_ENCODE (R161). -/
def spEncoded (inp : Bytes) (s : State) : State :=
  finish (spPacket s.crcEn (encodedHeader inp s) inp)
    { s with hdr := encodedHeader inp s
             crcv := if s.crcEn then crc16 (phPack (encodedHeader inp s) ++ inp) else s.crcv }

/-- The operand is not divided: SP_ENCODE joins again the two parts SHLEN names. -/
theorem exec_spEncode (inp : Bytes) (s : State) :
    exec (.spEncode inp) s =
      if inp.length < s.shlen.toNat then .next (raise .illegalCommand s)
      else if 65536 < trailingSize inp s then .next (raise .payloadTooLarge s)
      else if trailingSize inp s = 0 then .next (raise .emptyDataField s)
      else .next (spEncoded inp s) := by
  have hjoin := memRead_split inp s.shlen.toNat
  have hlen : (memRead inp 0 s.shlen.toNat).length + (memRead inp s.shlen.toNat (inp.length - s.shlen.toNat)).length
      = inp.length := by rw [← List.length_append, hjoin]
  have hexec : exec (.spEncode inp) s = execSpEncode inp s := rfl
  rw [hexec]
  simp only [execSpEncode, hjoin, hlen]
  cases hcrc : s.crcEn <;>
    simp [trailingSize, spEncoded, encodedHeader, spPacket, spTrailer, spBody, hcrc]

theorem exec_spEncode_of_fits {inp : Bytes} {s : State} (hsh : s.shlen.toNat ≤ inp.length)
    (hpos : 1 ≤ trailingSize inp s) (hmax : trailingSize inp s ≤ 65536) :
    exec (.spEncode inp) s = .next (spEncoded inp s) := by
  rw [exec_spEncode, if_neg (not_lt.mpr hsh), if_neg (not_lt.mpr hmax), if_neg (Nat.ne_of_gt hpos)]

/-- SP_ENCODE succeeds only past its three checks, with the state of R161. -/
theorem spEncode_success {inp : Bytes} {s t : State} (ht : exec (.spEncode inp) s = .next t)
    (hok : t.status.code = .success) :
    t = spEncoded inp s ∧ 1 ≤ trailingSize inp s ∧ trailingSize inp s ≤ 65536 := by
  rw [exec_spEncode] at ht
  split at ht
  case isTrue => cases ht; cases hok
  case isFalse =>
    split at ht
    case isTrue => cases ht; cases hok
    case isFalse hmax =>
      split at ht
      case isTrue => cases ht; cases hok
      case isFalse hne =>
        cases ht
        exact ⟨rfl, Nat.one_le_iff_ne_zero.mpr hne, not_lt.mp hmax⟩

theorem encodedHeader_pdl_toNat {inp : Bytes} {s : State} (hmax : trailingSize inp s ≤ 65536) :
    (encodedHeader inp s).pdl.toNat = trailingSize inp s - 1 :=
  Nat.mod_eq_of_lt (by omega)

theorem spEncoded_out (inp : Bytes) (s : State) :
    (spEncoded inp s).out = spPacket s.crcEn (encodedHeader inp s) inp := rfl

theorem spEncoded_crcv {s : State} (h : s.crcEn = true) (inp : Bytes) :
    (spEncoded inp s).crcv = crc16 (phPack (encodedHeader inp s) ++ inp) := if_pos h

/-! ### Reading a part of a part of the operand -/

theorem byteAt_memRead (b : Bytes) (a : Nat) {i n : Nat} (h : i < n) : byteAt (memRead b a n) i = byteAt b (a + i) := by
  simp only [byteAt, memRead, List.getD_eq_getElem?_getD, List.getElem?_take_of_lt h, List.getElem?_drop]

theorem be16_memRead (b : Bytes) (a : Nat) {i n : Nat} (h : i + 1 < n) : be16 (memRead b a n) i = be16 b (a + i) := by
  rw [be16, byteAt_memRead b a (by omega), byteAt_memRead b a h]
  rfl

theorem phUnpack_memRead_header (b : Bytes) : phUnpack (memRead b 0 6) = phUnpack b := by
  simp only [phUnpack, be16_memRead, Nat.reduceAdd, Nat.reduceLT, Nat.zero_add]

theorem phUnpack_phPack_append (h : Header) (v : Bytes) : phUnpack (phPack h ++ v) = h := by
  have hsix : memRead (phPack h ++ v) 0 6 = phPack h := memRead_prefix (phPack h) v
  rw [← phUnpack_memRead_header, hsix, phUnpack_phPack]

/-! ### The decoder on every byte string (R162) -/

/-- The trailing length a byte string declares, 1 to 65536 (R160). -/
def declaredLen (b : Bytes) : Nat := (be16 b 4).toNat + 1

/-- The decoded packet without a CRC trailer (R162). -/
def plainPacket (b : Bytes) : Packet :=
  { hdr := phUnpack b, data := (b.drop 6).take (declaredLen b), crc := none }

/-- The decoded packet with a CRC trailer (R162). -/
def crcPacket (b : Bytes) : Packet :=
  { hdr := phUnpack b, data := (b.drop 6).take (declaredLen b - 2), crc := some (be16 b (4 + declaredLen b)) }

theorem spDecode_of_short {b : Bytes} (h : b.length < 6) (crcEn : Bool) :
    spDecode b crcEn = .error .truncatedHeader := if_pos h

theorem spDecode_of_cut {b : Bytes} (h : 6 ≤ b.length) (hcut : b.length < 6 + declaredLen b) (crcEn : Bool) :
    spDecode b crcEn = .error .truncatedPacket := by
  simp only [spDecode, if_neg (not_lt.mpr h), phUnpack_memRead_header]
  exact if_pos hcut

section
variable {b : Bytes} (hwhole : 6 + declaredLen b ≤ b.length)
include hwhole

/-- The decoder when all the declared bytes are there, its reads said in terms of the byte string itself. -/
theorem spDecode_of_whole (crcEn : Bool) :
    spDecode b crcEn =
      if crcEn then
        if declaredLen b = 1 then .error .truncatedPacket
        else if crc16 (b.take (4 + declaredLen b)) = be16 b (4 + declaredLen b) then .ok (crcPacket b, 6 + declaredLen b)
        else .error .checksumMismatch
      else .ok (plainPacket b, 6 + declaredLen b) := by
  have hlong : 6 ≤ b.length := le_trans (Nat.le_add_right 6 _) hwhole
  have hneed : (phUnpack b).pdl.toNat + 1 = declaredLen b := rfl
  simp only [spDecode, if_neg (not_lt.mpr hlong), phUnpack_memRead_header, hneed, if_neg (not_lt.mpr hwhole)]
  by_cases hone : declaredLen b = 1
  · simp [hone, plainPacket, memRead]
  · have htwo : 2 ≤ declaredLen b := by
      have hpos : 1 ≤ declaredLen b := Nat.le_add_left 1 _
      omega
    have hcovered : 6 + declaredLen b - 2 = 4 + declaredLen b := by omega
    have hplace : 6 + (declaredLen b - 2) = 4 + declaredLen b := by omega
    have htrailer : be16 (memRead b 6 (declaredLen b)) (declaredLen b - 2) = be16 b (4 + declaredLen b) := by
      rw [be16_memRead b 6 (by omega), hplace]
    have hdata : memRead (memRead b 6 (declaredLen b)) 0 (declaredLen b - 2) = (b.drop 6).take (declaredLen b - 2) := by
      simp [memRead, List.take_take]
    simp only [if_neg (not_lt.mpr htwo), if_neg hone, hcovered, htrailer, hdata, ne_eq, ite_not]
    rfl

theorem spDecode_plain : spDecode b false = .ok (plainPacket b, 6 + declaredLen b) := spDecode_of_whole hwhole false

theorem spDecode_crc_of_one (hone : declaredLen b = 1) : spDecode b true = .error .truncatedPacket := by
  rw [spDecode_of_whole hwhole, if_pos rfl, if_pos hone]

theorem spDecode_crc_of_mismatch (htwo : 2 ≤ declaredLen b)
    (hbad : crc16 (b.take (4 + declaredLen b)) ≠ be16 b (4 + declaredLen b)) :
    spDecode b true = .error .checksumMismatch := by
  rw [spDecode_of_whole hwhole, if_pos rfl, if_neg (by omega), if_neg hbad]

theorem spDecode_crc_of_match (htwo : 2 ≤ declaredLen b)
    (hgood : crc16 (b.take (4 + declaredLen b)) = be16 b (4 + declaredLen b)) :
    spDecode b true = .ok (crcPacket b, 6 + declaredLen b) := by
  rw [spDecode_of_whole hwhole, if_pos rfl, if_neg (by omega), if_pos hgood]

end

/-! ### SP_DECODE (R163) -/

theorem exec_spDecode (inp : Bytes) (s : State) : exec (.spDecode inp) s = execSpDecode inp s := rfl

theorem exec_spDecode_of_error {inp : Bytes} {s : State} {e : Code} (h : spDecode inp s.crcEn = .error e) :
    exec (.spDecode inp) s = .next (raiseDecode e s) := by
  rw [exec_spDecode, execSpDecode, h]

theorem exec_spDecode_of_ok {inp : Bytes} {s : State} {p : Packet} {used : Nat}
    (h : spDecode inp s.crcEn = .ok (p, used)) :
    exec (.spDecode inp) s =
      .next (finish p.data { s with hdr := p.hdr, crcv := p.crc.getD s.crcv, consumed := BitVec.ofNat 32 used }) := by
  rw [exec_spDecode, execSpDecode, h]

/-! ### The decoder on a packet (R164) -/

theorem drop_phPack_append (h : Header) (v : Bytes) : (phPack h ++ v).drop 6 = v := List.drop_left' (phPack_length h)

/-- The trailer of a packet stands right behind the bytes it covers. -/
theorem be16_trailer (body : Bytes) (c : Half) (more : Bytes) : be16 (body ++ (bytes16 c ++ more)) body.length = c := by
  calc be16 (body ++ (bytes16 c ++ more)) body.length
      = be16 (bytes16 c ++ more) 0 := be16_append_right body (bytes16 c ++ more) 0
    _ = be16 (bytes16 c) 0 := be16_append_left (bytes16 c) more 0 Nat.one_lt_two
    _ = c := be16_bytes16 c

/-- The length field of `h` is the trailing size of its packet with data field `data`, less 1 (R160). -/
abbrev lengthFits (crcEn : Bool) (h : Header) (data : Bytes) : Prop :=
  h.pdl.toNat + 1 = data.length + trailerLen crcEn

theorem declaredLen_spPacket_append {crcEn : Bool} {h : Header} {data : Bytes} (hlen : lengthFits crcEn h data)
    (more : Bytes) : declaredLen (spPacket crcEn h data ++ more) = data.length + trailerLen crcEn := by
  rw [spPacket_append, declaredLen, be16_phPack_append, hlen]

theorem whole_spPacket_append {crcEn : Bool} {h : Header} {data : Bytes} (hlen : lengthFits crcEn h data)
    (more : Bytes) :
    6 + declaredLen (spPacket crcEn h data ++ more) ≤ (spPacket crcEn h data ++ more).length := by
  rw [declaredLen_spPacket_append hlen, List.length_append, spPacket_length]
  exact Nat.le_add_right _ _

theorem spDecode_spPacket_append_plain {h : Header} {data : Bytes} (hlen : lengthFits false h data) (more : Bytes) :
    spDecode (spPacket false h data ++ more) false =
      .ok ({ hdr := h, data := data, crc := none }, (spPacket false h data).length) := by
  have hdecl := declaredLen_spPacket_append hlen more
  rw [spDecode_plain (whole_spPacket_append hlen more), plainPacket, hdecl, spPacket_length, spPacket_append,
    phUnpack_phPack_append, drop_phPack_append]
  exact congrArg (fun d => Except.ok (Packet.mk h d none, _)) List.take_left

theorem spDecode_spPacket_append_crc {h : Header} {data : Bytes} (hlen : lengthFits true h data) (more : Bytes) :
    spDecode (spPacket true h data ++ more) true =
      .ok ({ hdr := h, data := data, crc := some (crc16 (phPack h ++ data)) }, (spPacket true h data).length) := by
  have hdecl : declaredLen (spPacket true h data ++ more) = data.length + 2 := declaredLen_spPacket_append hlen more
  have hcovered : 4 + (data.length + 2) = (phPack h ++ data).length := by
    rw [List.length_append, phPack_length]
    omega
  have hbytes : spPacket true h data ++ more = (phPack h ++ data) ++ (bytes16 (crc16 (phPack h ++ data)) ++ more) :=
    List.append_assoc _ _ _
  have htrailer : be16 (spPacket true h data ++ more) (4 + (data.length + 2)) = crc16 (phPack h ++ data) := by
    rw [hcovered, hbytes, be16_trailer]
  have htake : (spPacket true h data ++ more).take (4 + (data.length + 2)) = phPack h ++ data := by
    rw [hcovered, hbytes, List.take_left]
  rw [spDecode_crc_of_match (whole_spPacket_append hlen more) (by omega) (by rw [hdecl, htake, htrailer]), crcPacket, hdecl,
    htrailer, spPacket_length, spPacket_append, phUnpack_phPack_append, drop_phPack_append, Nat.add_sub_cancel,
    List.take_left]
  rfl

/-- The decoder reads back the packet of a header whose length field is right, whatever follows. -/
theorem spDecode_spPacket_append {crcEn : Bool} {h : Header} {data : Bytes} (hlen : lengthFits crcEn h data)
    (more : Bytes) :
    spDecode (spPacket crcEn h data ++ more) crcEn =
      .ok ({ hdr := h, data := data, crc := if crcEn then some (crc16 (phPack h ++ data)) else none },
        (spPacket crcEn h data).length) := by
  cases crcEn with
  | false => exact spDecode_spPacket_append_plain hlen more
  | true => exact spDecode_spPacket_append_crc hlen more

/-! ### The statements of 42_space_packet.md -/

/-- Settles O22: the three checks in order, then the packet. -/
theorem spEncodeResult : Obligations.SpEncodeResult := by
  intro inp s
  refine ⟨fun hsh => ?_, fun hsh hlarge => ?_, fun hsh hzero => ?_, exec_spEncode_of_fits⟩
  · rw [exec_spEncode, if_pos hsh]
    rfl
  · have hlarge' : 65536 < trailingSize inp s := hlarge
    rw [exec_spEncode, if_neg (not_lt.mpr hsh), if_pos hlarge']
    rfl
  · have hzero' : trailingSize inp s = 0 := hzero
    rw [exec_spEncode, if_neg (not_lt.mpr hsh), hzero', if_neg (Nat.not_lt_zero _), if_pos rfl]
    rfl

/-- Settles O23: the decoder's answer in each of the six cases, written to the registers. -/
theorem spDecodeResult : Obligations.SpDecodeResult := by
  intro inp s
  refine ⟨fun hshort => ?_, fun hlong hcut => ?_, fun hwhole hcrc => ?_, fun hwhole hcrc hone => ?_,
    fun hwhole hcrc htwo hbad => ?_, fun hwhole hcrc htwo hgood => ?_⟩
  · exact exec_spDecode_of_error (spDecode_of_short hshort s.crcEn)
  · exact exec_spDecode_of_error (spDecode_of_cut hlong hcut s.crcEn)
  · exact exec_spDecode_of_ok (hcrc ▸ spDecode_plain hwhole)
  · exact exec_spDecode_of_error (hcrc ▸ spDecode_crc_of_one hwhole hone)
  · exact exec_spDecode_of_error (hcrc ▸ spDecode_crc_of_mismatch hwhole htwo hbad)
  · exact exec_spDecode_of_ok (hcrc ▸ spDecode_crc_of_match hwhole htwo hgood)

/-- Settles O25: OUT is header, data field and trailer, and the header's length field is `T - 1` of R160. -/
theorem lengthFieldCorrect : Obligations.LengthFieldCorrect := by
  intro inp s t ht hok
  obtain ⟨rfl, hpos, hmax⟩ := spEncode_success ht hok
  have hlen : (spEncoded inp s).out.length = 6 + trailingSize inp s := spPacket_length _ _ _
  have hfield : (be16 (spEncoded inp s).out 4).toNat = trailingSize inp s - 1 := by
    rw [spEncoded_out, spPacket, List.append_assoc, be16_phPack_append, encodedHeader_pdl_toNat hmax]
  omega

/-- Settles O24: SP_ENCODE's OUT is a packet whose length field is right, so the decoder reads it back. -/
theorem packetRoundTrip : Obligations.PacketRoundTrip := by
  intro inp more s t u ht hok hcfg
  obtain ⟨rfl, hpos, hmax⟩ := spEncode_success ht hok
  have hcrc : u.crcEn = s.crcEn := by rw [State.crcEn, State.crcEn, hcfg]
  have hfits : lengthFits s.crcEn (encodedHeader inp s) inp := by
    rw [lengthFits, encodedHeader_pdl_toNat hmax, Nat.sub_add_cancel hpos, trailingSize]
  have hdecode := spDecode_spPacket_append hfits more
  rw [← spEncoded_out] at hdecode
  have hsize : (spEncoded inp s).out.length < 2 ^ 32 := by
    rw [spEncoded_out, spPacket_length, ← trailingSize]
    omega
  refine ⟨_, exec_spDecode_of_ok (hcrc ▸ hdecode), rfl, rfl, rfl, rfl, Nat.mod_eq_of_lt hsize, fun hen => ?_⟩
  rw [spEncoded_crcv hen, finish_crcv, hcrc, if_pos hen]
  rfl

end Sys2Proof.Machine
end

section
/-! The BCH codeblocks (43_bch_cltu.md R190 to R198): the 63 code bits on the wire and in the received polynomial, the
syndrome table, and the decoder as a function of the received polynomial. -/

namespace Sys2Proof.Machine

/-! ### The bits of a byte string in wire order (R190) -/

/-- Wire bit `w` of a byte string: bit `7 - w mod 8` of byte `w div 8` (R190). -/
def wireBit (c : Bytes) (w : Nat) : Bool := (byteAt c (w / 8)).getLsbD (7 - w % 8)

theorem wireBit_mul_add (c : Bytes) (j : Nat) {b : Nat} (hb : b < 8) :
    wireBit c (8 * j + b) = (byteAt c j).getLsbD (7 - b) := by
  have hbyte : (8 * j + b) / 8 = j := by omega
  have hbit : (8 * j + b) % 8 = b := by omega
  rw [wireBit, hbyte, hbit]

theorem wireBit_cons_of_lt (x : Byte) (c : Bytes) {w : Nat} (hw : w < 8) : wireBit (x :: c) w = x.getLsbD (7 - w) := by
  rw [wireBit, Nat.div_eq_of_lt hw, Nat.mod_eq_of_lt hw]
  rfl

theorem wireBit_cons_add (x : Byte) (c : Bytes) (w : Nat) : wireBit (x :: c) (8 + w) = wireBit c w := by
  have hbyte : (8 + w) / 8 = w / 8 + 1 := by omega
  rw [wireBit, hbyte, Nat.add_mod_left]
  rfl

/-- The integer a byte string spells has the string's bits, the first on the wire most significant. -/
theorem testBit_beNat (s : Bytes) {w : Nat} (hw : w < 8 * s.length) :
    (beNat s).testBit (8 * s.length - 1 - w) = wireBit s w := by
  induction s generalizing w with
  | nil => exact absurd hw (Nat.not_lt_zero w)
  | cons b s ih =>
    have hpow : 256 ^ s.length = 2 ^ (8 * s.length) := (pow_mul 2 8 s.length).symm
    have hlow : beNat s < 2 ^ (8 * s.length) := hpow ▸ beNat_lt s
    rw [List.length_cons] at hw ⊢
    rw [beNat_cons, hpow, Nat.mul_comm, Nat.testBit_two_pow_mul_add _ hlow]
    by_cases h8 : w < 8
    · have hdeg : 8 * (s.length + 1) - 1 - w - 8 * s.length = 7 - w := by omega
      rw [if_neg (by omega), hdeg, wireBit_cons_of_lt b s h8]
      rfl
    · obtain ⟨v, rfl⟩ : ∃ v, w = 8 + v := Nat.exists_eq_add_of_le (not_lt.mp h8)
      have hdeg : 8 * (s.length + 1) - 1 - (8 + v) = 8 * s.length - 1 - v := by omega
      rw [if_pos (by omega), hdeg, wireBit_cons_add, ih (by omega)]

theorem flipBit_length (w : Nat) (c : Bytes) : (flipBit w c).length = c.length := by
  simp [flipBit]

/-- The mask of `flipBit` has one bit. -/
theorem getLsbD_flipMask : ∀ a b : Fin 8, (0x80#8 >>> a.val).getLsbD (7 - b.val) = decide (b = a) := by
  decide

theorem byteAt_flipBit {v : Nat} {c : Bytes} (hv : v < 8 * c.length) (j : Nat) :
    byteAt (flipBit v c) j = if j = v / 8 then byteAt c j ^^^ 0x80#8 >>> (v % 8) else byteAt c j := by
  simp only [byteAt, flipBit, List.getD_eq_getElem?_getD, List.getElem?_modify]
  split
  case isTrue h =>
    have hj : j < c.length := by omega
    rw [if_pos h.symm, List.getElem?_eq_getElem hj]
    rfl
  case isFalse h =>
    rw [if_neg (Ne.symm h)]
    simp

/-- Flipping a wire bit changes this bit and no other. -/
theorem wireBit_flipBit {v : Nat} {c : Bytes} (hv : v < 8 * c.length) (w : Nat) :
    wireBit (flipBit v c) w = (wireBit c w ^^ decide (w = v)) := by
  rw [wireBit, byteAt_flipBit hv]
  split
  case isTrue h =>
    have hmask : (0x80#8 >>> (v % 8)).getLsbD (7 - w % 8) = decide (w % 8 = v % 8) := by
      simpa [Fin.ext_iff] using
        getLsbD_flipMask ⟨v % 8, Nat.mod_lt v (by decide)⟩ ⟨w % 8, Nat.mod_lt w (by decide)⟩
    have hiff : w % 8 = v % 8 ↔ w = v := by omega
    rw [BitVec.getLsbD_xor, hmask, decide_eq_decide.mpr hiff, wireBit]
  case isFalse h =>
    have hne : w ≠ v := fun e => h (congrArg (· / 8) e)
    simp [wireBit, hne]

/-! ### The received polynomial (R193) -/

/-- The seven data bytes a code polynomial carries (R195). -/
def polyData (r : BitVec 63) : Bytes := natBytes 7 (r >>> 7).toNat

/-- The parity of a received block with the complement undone (R193). -/
def receivedParity (c : Bytes) : BitVec 7 := (byteAt c 7).extractLsb' 1 7 ^^^ parityMask

theorem receivedPoly_eq_append (c : Bytes) : receivedPoly c = be56 (memRead c 0 7) ++ receivedParity c := by
  rw [receivedPoly, ← receivedParity, setWidth_shiftLeft_or]
  exact BitVec.setWidth_eq _

theorem receivedPoly_eq_xor (c : Bytes) :
    receivedPoly c = (be56 (memRead c 0 7)).setWidth 63 <<< 7 ^^^ (receivedParity c).setWidth 63 := by
  apply BitVec.eq_of_getLsbD_eq
  intro i hi
  by_cases h7 : i < 7
  · simp [receivedPoly, receivedParity, hi, h7]
  · have hp : (receivedParity c).getLsbD i = false := BitVec.getLsbD_of_ge _ i (not_lt.mp h7)
    rw [receivedPoly, ← receivedParity]
    simp [hp]

section
variable {c : Bytes} (hc : c.length = 8)
include hc

theorem memRead_data_length : (memRead c 0 7).length = 7 := by simp [memRead_length, hc]

theorem polyData_receivedPoly : polyData (receivedPoly c) = memRead c 0 7 := by
  have hlen := memRead_data_length hc
  have hlt := beNat_lt (memRead c 0 7)
  have hlow := (receivedParity c).isLt
  rw [hlen] at hlt
  have hnat : (receivedPoly c >>> 7).toNat = beNat (memRead c 0 7) := by
    rw [BitVec.toNat_ushiftRight, Nat.shiftRight_eq_div_pow, receivedPoly_eq_append, toNat_append_eq_add, be56,
      BitVec.toNat_ofNat]
    omega
  calc polyData (receivedPoly c) = natBytes (memRead c 0 7).length (beNat (memRead c 0 7)) := by
        rw [polyData, hnat, hlen]
    _ = memRead c 0 7 := natBytes_beNat _

/-- The coefficient of degree `62 - w` is wire bit `w`, the complement of the parity undone (R190, R193). -/
theorem getLsbD_receivedPoly {w : Nat} (hw : w < 63) :
    (receivedPoly c).getLsbD (62 - w) = (wireBit c w ^^ decide (56 ≤ w)) := by
  rw [receivedPoly_eq_append, BitVec.getLsbD_append]
  split
  case isTrue h =>
    have hbyte : w / 8 = 7 := by omega
    have hbit : 1 + (62 - w) = 7 - w % 8 := by omega
    have hpar : 56 ≤ w := by omega
    have hmask : parityMask.getLsbD (62 - w) = true := by
      have hones : parityMask = BitVec.allOnes 7 := rfl
      rw [hones, BitVec.getLsbD_allOnes, decide_eq_true h]
    rw [receivedParity, BitVec.getLsbD_xor, hmask]
    simp [wireBit, h, hbyte, hbit, hpar]
  case isFalse h =>
    have hlen := memRead_data_length hc
    have hdeg : 62 - w - 7 = 8 * (memRead c 0 7).length - 1 - w := by omega
    have hdata : 62 - w - 7 < 56 := by omega
    have hpar : ¬ 56 ≤ w := by omega
    have hbyte : byteAt (memRead c 0 7) (w / 8) = byteAt c (w / 8) := by
      rw [byteAt_memRead c 0 (by omega), Nat.zero_add]
    rw [be56, BitVec.getLsbD_ofNat, decide_eq_true hdata, hdeg, testBit_beNat _ (by omega), wireBit, hbyte]
    simp [wireBit, hpar]

/-- A flipped code bit is an error term added to the polynomial (R193). -/
theorem receivedPoly_flipBit {w : Nat} (hw : w < 63) :
    receivedPoly (flipBit w c) = receivedPoly c ^^^ 1#63 <<< (62 - w) := by
  have hflen : (flipBit w c).length = 8 := by rw [flipBit_length, hc]
  apply BitVec.eq_of_getLsbD_eq
  intro i hi
  obtain ⟨u, hu, rfl⟩ : ∃ u, u < 63 ∧ i = 62 - u := ⟨62 - i, by omega, by omega⟩
  have hterm : (1#63 <<< (62 - w)).getLsbD (62 - u) = decide (u = w) := by
    have hiff : u = w ↔ 62 - u = 62 - w := by omega
    have hdeg : 62 - w < 63 := by omega
    rw [← BitVec.twoPow_eq, BitVec.getLsbD_twoPow, decide_eq_true hdeg, Bool.true_and]
    exact decide_eq_decide.mpr (eq_comm.trans hiff.symm)
  rw [BitVec.getLsbD_xor, getLsbD_receivedPoly hflen hu, getLsbD_receivedPoly hc hu, hterm,
    wireBit_flipBit (by omega), Bool.xor_right_comm]

/-- The fill bit is not a code bit (R193). -/
theorem receivedPoly_flipBit_fill : receivedPoly (flipBit 63 c) = receivedPoly c := by
  have hflen : (flipBit 63 c).length = 8 := by rw [flipBit_length, hc]
  apply BitVec.eq_of_getLsbD_eq
  intro i hi
  obtain ⟨u, hu, rfl⟩ : ∃ u, u < 63 ∧ i = 62 - u := ⟨62 - i, by omega, by omega⟩
  rw [getLsbD_receivedPoly hflen hu, getLsbD_receivedPoly hc hu, wireBit_flipBit (by omega),
    decide_eq_false (by omega), Bool.xor_false]

end

/-! ### The codeblock of seven bytes (R192) -/

theorem bchEnc_length (d : Bytes) : (bchEnc d).length = d.length + 1 := by simp [bchEnc]

section
variable {d : Bytes} (hd : d.length = 7)
include hd

theorem memRead_bchEnc : memRead (bchEnc d) 0 7 = d := hd ▸ memRead_prefix d _

theorem receivedParity_bchEnc : receivedParity (bchEnc d) = bchRem ((be56 d).setWidth 63 <<< 7) := by
  have hlast : byteAt (bchEnc d) 7 = parityByte (bchParity (be56 d)) := by
    rw [← hd]
    exact byteAt_append_right d _ 0
  have hbits : (parityByte (bchParity (be56 d))).extractLsb' 1 7 = bchParity (be56 d) :=
    BitVec.extractLsb'_append_eq_left
  rw [receivedParity, hlast, hbits, bchParity, BitVec.xor_assoc, BitVec.xor_self, BitVec.xor_zero]

/-- A codeblock is a multiple of the generator: what the parity adds is the remainder of the rest. -/
theorem bchRem_receivedPoly_bchEnc : bchRem (receivedPoly (bchEnc d)) = 0 := by
  rw [receivedPoly_eq_xor, bchRem_add, bchRem_small, memRead_bchEnc hd, receivedParity_bchEnc hd]
  exact BitVec.xor_self

theorem polyData_receivedPoly_bchEnc : polyData (receivedPoly (bchEnc d)) = d := by
  rw [polyData_receivedPoly (by rw [bchEnc_length, hd]), memRead_bchEnc hd]

end

/-! ### The syndrome table (R194) -/

theorem syndromeTable_getElem? (i : Fin 63) : syndromeTable[62 - i.val]? = some (bchRem (1#63 <<< i.val)) := by
  revert i
  decide +kernel

theorem bchRem_error_mem {i : Nat} (hi : i < 63) : bchRem (1#63 <<< i) ∈ syndromeTable :=
  List.mem_of_getElem? (syndromeTable_getElem? ⟨i, hi⟩)

theorem errorDegree_bchRem_error (i : Fin 63) : errorDegree (bchRem (1#63 <<< i.val)) = some i.val := by
  revert i
  decide +kernel

/-- No single error has the syndrome of another. -/
theorem bchRem_error_injective {i j : Nat} (hi : i < 63) (hj : j < 63)
    (h : bchRem (1#63 <<< i) = bchRem (1#63 <<< j)) : i = j := by
  have hdeg := errorDegree_bchRem_error ⟨i, hi⟩
  rw [h, errorDegree_bchRem_error ⟨j, hj⟩] at hdeg
  exact (Option.some.inj hdeg).symm

theorem positionFrom_of_notMem {x : BitVec 7} {l : List (BitVec 7)} (h : x ∉ l) (k : Nat) :
    positionFrom x k l = none := by
  induction l generalizing k with
  | nil => rfl
  | cons y ys ih =>
    rw [List.mem_cons, not_or] at h
    rw [positionFrom, if_neg (Ne.symm h.1), ih h.2]

theorem errorDegree_of_notMem {x : BitVec 7} (h : x ∉ syndromeTable) : errorDegree x = none := by
  rw [errorDegree, positionFrom_of_notMem h, Option.map_none]

/-- The sum over GF(2) of the low `n` bits of a syndrome. -/
def bitSum (y : BitVec 7) : Nat → Bool
  | 0 => false
  | n + 1 => y.getLsbD n ^^ bitSum y n

theorem bitSum_xor (x y : BitVec 7) (n : Nat) : bitSum (x ^^^ y) n = (bitSum x n ^^ bitSum y n) := by
  induction n with
  | zero => rfl
  | succ n ih =>
    rw [bitSum, bitSum, bitSum, BitVec.getLsbD_xor, ih]
    simp only [Bool.xor_assoc, Bool.xor_left_comm]

/-- Every single-error syndrome has an odd number of 1 bits (R194). -/
theorem bitSum_of_mem : ∀ y ∈ syndromeTable, bitSum y 7 = true := by decide

/-- The sum of two table entries has even weight, so it is not one of them (R198). -/
theorem xor_notMem_syndromeTable {x y : BitVec 7} (hx : x ∈ syndromeTable) (hy : y ∈ syndromeTable) :
    x ^^^ y ∉ syndromeTable := by
  intro h
  have hodd := bitSum_of_mem _ h
  rw [bitSum_xor, bitSum_of_mem x hx, bitSum_of_mem y hy] at hodd
  exact absurd hodd (by decide)

/-! ### The decoder as a function of the received polynomial (R195) -/

/-- R195 in terms of the received polynomial alone. -/
def decodePoly (r : BitVec 63) : Option (Bytes × Bool) :=
  if bchRem r = 0 then some (polyData r, false)
  else (errorDegree (bchRem r)).map fun i => (polyData (r ^^^ 1#63 <<< i), true)

theorem bchDec_eq_decodePoly {c : Bytes} (hc : c.length = 8) : bchDec c = decodePoly (receivedPoly c) := by
  rw [bchDec, decodePoly, polyData_receivedPoly hc, syndrome]
  cases errorDegree (bchRem (receivedPoly c)) <;> rfl

theorem length_of_decodePoly {r : BitVec 63} {d : Bytes} {k : Bool} (h : decodePoly r = some (d, k)) :
    d.length = 7 := by
  unfold decodePoly at h
  split at h
  case isTrue =>
    cases h
    exact natBytes_length 7 _
  case isFalse =>
    obtain ⟨i, -, hi⟩ := Option.map_eq_some_iff.mp h
    cases hi
    exact natBytes_length 7 _

theorem decodePoly_of_uncorrectable {r : BitVec 63} (h0 : bchRem r ≠ 0) (h : bchRem r ∉ syndromeTable) :
    decodePoly r = none := by
  rw [decodePoly, if_neg h0, errorDegree_of_notMem h, Option.map_none]

section
variable {r : BitVec 63} (hr : bchRem r = 0)
include hr

theorem decodePoly_codeword : decodePoly r = some (polyData r, false) := if_pos hr

theorem decodePoly_one_error {i : Nat} (hi : i < 63) : decodePoly (r ^^^ 1#63 <<< i) = some (polyData r, true) := by
  have hsyn : bchRem (r ^^^ 1#63 <<< i) = bchRem (1#63 <<< i) := by
    rw [bchRem_add, hr]
    exact BitVec.zero_xor
  have hne : bchRem (1#63 <<< i) ≠ 0 := fun h => absurd (h ▸ bitSum_of_mem _ (bchRem_error_mem hi)) (by decide)
  rw [decodePoly, hsyn, if_neg hne, errorDegree_bchRem_error ⟨i, hi⟩, Option.map_some, BitVec.xor_assoc,
    BitVec.xor_self, BitVec.xor_zero]

theorem decodePoly_two_errors {i j : Nat} (hi : i < 63) (hj : j < 63) (hij : i ≠ j) :
    decodePoly (r ^^^ 1#63 <<< i ^^^ 1#63 <<< j) = none := by
  have hsyn : bchRem (r ^^^ 1#63 <<< i ^^^ 1#63 <<< j) = bchRem (1#63 <<< i) ^^^ bchRem (1#63 <<< j) := by
    rw [BitVec.xor_assoc, bchRem_add, hr, bchRem_add]
    exact BitVec.zero_xor
  refine decodePoly_of_uncorrectable ?_ ?_ <;> rw [hsyn]
  · exact fun h => hij (bchRem_error_injective hi hj (BitVec.xor_eq_zero_iff.mp h))
  · exact xor_notMem_syndromeTable (bchRem_error_mem hi) (bchRem_error_mem hj)

end

/-! ### The commands (R196, R197) -/

theorem exec_bchEncodeBlock_of_seven {inp : Bytes} (h : inp.length = 7) (s : State) :
    exec (.bchEncodeBlock inp) s = .next (finish (bchEnc inp) s) := by
  have hall : memRead inp 0 7 = inp := List.take_of_length_le (le_of_eq h)
  have hexec : exec (.bchEncodeBlock inp) s = .next (finish (bchEnc (memRead inp 0 7)) s) := if_neg (not_not.mpr h)
  rw [hexec, hall]

theorem exec_bchEncodeBlock_of_ne {inp : Bytes} (h : inp.length ≠ 7) (s : State) :
    exec (.bchEncodeBlock inp) s = .next (raise .illegalCommand s) := if_pos h

theorem exec_bchDecodeBlock_of_eight {inp : Bytes} (h : inp.length = 8) (s : State) :
    exec (.bchDecodeBlock inp) s =
      .next ((bchDec inp).elim (raise .uncorrectableBlock s) fun r => finishWith r.1 r.2 s) := by
  have hall : memRead inp 0 8 = inp := List.take_of_length_le (le_of_eq h)
  have hexec : exec (.bchDecodeBlock inp) s = execBchDecodeBlock inp s := rfl
  rw [hexec, execBchDecodeBlock, if_neg (not_not.mpr h), hall]
  cases bchDec inp <;> rfl

theorem exec_bchDecodeBlock_of_ne {inp : Bytes} (h : inp.length ≠ 8) (s : State) :
    exec (.bchDecodeBlock inp) s = .next (raise .illegalCommand s) := if_pos h

/-! ### The statements of 43_bch_cltu.md on codeblocks -/

/-- Settles O32: the received polynomial of a codeblock has remainder 0, and flipped bits add error terms to it. -/
theorem bchCorrectsOneDetectsTwo : Obligations.BchCorrectsOneDetectsTwo := by
  refine ⟨fun d hd => ?_, by decide +kernel⟩
  have hlen : (bchEnc d).length = 8 := by rw [bchEnc_length, hd]
  have hflip (w : Nat) : (flipBit w (bchEnc d)).length = 8 := by rw [flipBit_length, hlen]
  have hrem := bchRem_receivedPoly_bchEnc hd
  have hdata := polyData_receivedPoly_bchEnc hd
  have hclean : bchDec (bchEnc d) = some (d, false) := by
    rw [bchDec_eq_decodePoly hlen, decodePoly_codeword hrem, hdata]
  refine ⟨hclean, ?_, fun w hw => ?_, fun v w hvw hw => ?_⟩
  · rw [← hclean, bchDec_eq_decodePoly (hflip 63), bchDec_eq_decodePoly hlen, receivedPoly_flipBit_fill hlen]
  · rw [bchDec_eq_decodePoly (hflip w), receivedPoly_flipBit hlen hw, decodePoly_one_error hrem (by omega), hdata]
  · rw [bchDec_eq_decodePoly (by rw [flipBit_length, hflip]), receivedPoly_flipBit (hflip w) (by omega),
      receivedPoly_flipBit hlen hw]
    exact decodePoly_two_errors hrem (by omega) (by omega) (by omega)

/-- Settles O29: the command's answer in each of the three cases of the operand. -/
theorem bchDecodeBlockResult : Obligations.BchDecodeBlockResult := by
  intro inp s
  refine ⟨fun hne => exec_bchDecodeBlock_of_ne hne s, fun hlen hbad => ?_, fun d k hlen hok => ⟨?_, ?_⟩⟩
  · rw [exec_bchDecodeBlock_of_eight hlen, hbad]
    rfl
  · rw [bchDec_eq_decodePoly hlen] at hok
    exact length_of_decodePoly hok
  · rw [exec_bchDecodeBlock_of_eight hlen, hok]
    rfl

/-- Settles O30: the table is a finite fact; outside it no degree is found. -/
theorem syndromeTableIsExact : Obligations.SyndromeTableIsExact := by
  refine ⟨syndromeTable_getElem?, by decide +kernel, by decide +kernel, fun c hc h0 h => ?_⟩
  rw [bchDec_eq_decodePoly hc]
  exact decodePoly_of_uncorrectable h0 h

/-- Settles O27: the command's answer in each of the two cases of the operand. -/
theorem bchEncodeBlockResult : Obligations.BchEncodeBlockResult := fun _ s =>
  ⟨fun h => exec_bchEncodeBlock_of_seven h s, fun h => exec_bchEncodeBlock_of_ne h s⟩

end Sys2Proof.Machine
end

section
/-! The randomizer (43_bch_cltu.md R204 to R207): the shift register holds the next eight bits of its recurrence. -/

namespace Sys2Proof.Machine

/-! ### The shift register and the recurrence (R204) -/

/-- The stages after `t` steps: stage `j` holds bit `t + j` of the recurrence. -/
def StagesAt (t : Nat) (st : Byte) : Prop := ∀ j, j < 8 → st.getLsbD j = prnBit (t + j)

theorem stagesAt_seed : StagesAt 0 consts.prn.seed := by
  unfold StagesAt
  decide

theorem parity8_taps (st : Byte) :
    parity8 (st &&& consts.prn.taps) =
      (st.getLsbD 0 ^^ st.getLsbD 1 ^^ st.getLsbD 2 ^^ st.getLsbD 3 ^^ st.getLsbD 4 ^^ st.getLsbD 6) := by
  simp [parity8]

theorem getLsbD_lfsrStep (st : Byte) {j : Nat} (hj : j < 8) :
    (lfsrStep st).getLsbD j = if j = 7 then parity8 (st &&& consts.prn.taps) else st.getLsbD (j + 1) := by
  split
  case isTrue h =>
    subst h
    simp [lfsrStep]
  case isFalse h =>
    have h7 : j < 7 := by omega
    simp [lfsrStep, h7, hj, Nat.add_comm]

/-- One step of the register is one step of the recurrence. -/
theorem stagesAt_lfsrStep {t : Nat} {st : Byte} (h : StagesAt t st) : StagesAt (t + 1) (lfsrStep st) := by
  intro j hj
  rw [getLsbD_lfsrStep st hj]
  split
  case isTrue h7 =>
    subst h7
    rw [parity8_taps, h 0 (by decide), h 1 (by decide), h 2 (by decide), h 3 (by decide), h 4 (by decide),
      h 6 (by decide), Nat.add_assoc, prnBit]
    rfl
  case isFalse h7 =>
    rw [h (j + 1) (by omega), Nat.add_assoc, Nat.add_comm 1 j]

theorem stagesAt_lfsrBits (n : Nat) {t : Nat} (acc : Byte) {st : Byte} (h : StagesAt t st) :
    StagesAt (t + n) (lfsrBits n acc st).2 := by
  induction n generalizing t acc st with
  | zero => exact h
  | succ n ih =>
    rw [lfsrBits, Nat.add_comm n 1, ← Nat.add_assoc]
    exact ih _ (stagesAt_lfsrStep h)

theorem getLsbD_shiftIn (acc : Byte) (b : Bool) {i : Nat} (hi : i < 8) :
    ((acc <<< 1) ||| (BitVec.ofBool b).setWidth 8).getLsbD i = if i = 0 then b else acc.getLsbD (i - 1) := by
  split
  case isTrue h =>
    subst h
    simp
  case isFalse h =>
    have hlt : i - 1 < 8 := by omega
    simp [hi, h, hlt]

/-- The output bits stand above the accumulator's bits that are left, the latest at the bottom. -/
theorem getLsbD_lfsrBits (n : Nat) {t : Nat} (acc : Byte) {st : Byte} (h : StagesAt t st) {i : Nat} (hi : i < 8) :
    (lfsrBits n acc st).1.getLsbD i = if i < n then prnBit (t + (n - 1 - i)) else acc.getLsbD (i - n) := by
  induction n generalizing t acc st with
  | zero => rfl
  | succ n ih =>
    rw [lfsrBits, ih _ (stagesAt_lfsrStep h)]
    by_cases hn : i < n
    · have hpos : t + 1 + (n - 1 - i) = t + (n + 1 - 1 - i) := by omega
      rw [if_pos hn, if_pos (by omega), hpos]
    · rw [if_neg hn, getLsbD_shiftIn acc _ (by omega)]
      by_cases hlast : i = n
      · subst hlast
        rw [if_pos (Nat.sub_self i), if_pos (Nat.lt_succ_self i), h 0 (by decide), Nat.add_sub_cancel, Nat.sub_self]
      · rw [if_neg (by omega), if_neg (by omega), Nat.sub_sub]

/-! ### The byte sequence (R205) -/

theorem prnFrom_length (n : Nat) (st : Byte) : (prnFrom n st).length = n := by
  induction n generalizing st with
  | zero => rfl
  | succ n ih => rw [prnFrom, List.length_cons, ih]

theorem wireBit_prnFrom {n t : Nat} {st : Byte} (h : StagesAt t st) {w : Nat} (hw : w < 8 * n) :
    wireBit (prnFrom n st) w = prnBit (t + w) := by
  induction n generalizing t st w with
  | zero => exact absurd hw (Nat.not_lt_zero w)
  | succ n ih =>
    rw [prnFrom]
    by_cases h8 : w < 8
    · have hpos : 8 - 1 - (7 - w) = w := by omega
      rw [wireBit_cons_of_lt _ _ h8, getLsbD_lfsrBits 8 0 h (by omega), if_pos (by omega), hpos]
    · obtain ⟨v, rfl⟩ : ∃ v, w = 8 + v := Nat.exists_eq_add_of_le (not_lt.mp h8)
      rw [wireBit_cons_add, ih (stagesAt_lfsrBits 8 0 h) (by omega), Nat.add_assoc]

/-! ### Randomizing a byte string (R205, R207) -/

theorem rand_length (s : Bytes) : (rand s).length = s.length := by
  rw [rand, List.length_zipWith, prn, prnFrom_length, Nat.min_self]

theorem byteAt_zipWith_xor {u v : Bytes} {j : Nat} (hu : j < u.length) (hv : j < v.length) :
    byteAt (List.zipWith (· ^^^ ·) u v) j = byteAt u j ^^^ byteAt v j := by
  simp [byteAt, hu, hv]

theorem wireBit_rand (s : Bytes) {w : Nat} (hw : w < 8 * s.length) :
    wireBit (rand s) w = (wireBit s w ^^ prnBit w) := by
  have hprn : wireBit (prn s.length) w = prnBit w := by
    rw [prn, wireBit_prnFrom stagesAt_seed hw, Nat.zero_add]
  rw [← hprn, wireBit, rand, byteAt_zipWith_xor (by omega) (by rw [prn, prnFrom_length]; omega), BitVec.getLsbD_xor]
  rfl

/-- Adding a sequence twice gives the byte string back. -/
theorem zipWith_xor_cancel {u v : Bytes} (h : u.length ≤ v.length) :
    List.zipWith (· ^^^ ·) (List.zipWith (· ^^^ ·) u v) v = u := by
  induction u generalizing v with
  | nil => rfl
  | cons a u ih =>
    cases v with
    | nil => exact absurd h (Nat.not_succ_le_zero _)
    | cons b v =>
      rw [List.zipWith_cons_cons, List.zipWith_cons_cons, ih (Nat.le_of_succ_le_succ h), BitVec.xor_assoc,
        BitVec.xor_self, BitVec.xor_zero]

theorem rand_rand (s : Bytes) : rand (rand s) = s := by
  have hlen : s.length ≤ (prn s.length).length := by rw [prn, prnFrom_length]
  rw [rand, rand_length, rand, zipWith_xor_cancel hlen]

/-! ### The statements of 43_bch_cltu.md on RANDOMIZE -/

theorem exec_randomize (inp : Bytes) (s : State) : exec (.randomize inp) s = .next (finish (rand inp) s) := rfl

/-- Settles O35: the sequence's bits in wire order are the recurrence's. -/
theorem randomizeResult : Obligations.RandomizeResult := by
  refine fun inp s => ⟨rand inp, exec_randomize inp s, rand_length inp, fun j b hj hb => ?_⟩
  rw [← wireBit_mul_add _ _ hb, ← wireBit_mul_add _ _ hb, wireBit_rand inp (by omega)]

/-- Settles O36: the sequence depends on the length alone, so it is added twice. -/
theorem randomizeInvolution : Obligations.RandomizeInvolution := by
  intro inp s t ht
  rw [exec_randomize] at ht
  cases ht
  exact ⟨_, exec_randomize _ _, rand_rand inp, rfl⟩

end Sys2Proof.Machine
end

section
/-! CLTU_ENCODE (43_bch_cltu.md R200 to R202): the filled frame and its codeblocks in order. -/

namespace Sys2Proof.Machine

theorem pad_eq_append (s : Bytes) : pad s = s ++ List.replicate ((7 - s.length % 7) % 7) 0x55#8 := rfl

theorem pad_length (s : Bytes) : (pad s).length = 7 * ((s.length + 6) / 7) := by
  rw [pad_eq_append, List.length_append, List.length_replicate]
  omega

theorem codeblocks_length {n : Nat} {u : Bytes} (h : 7 * n ≤ u.length) : (codeblocks n u).length = 8 * n := by
  induction n generalizing u with
  | zero => rfl
  | succ n ih =>
    have hrest : 7 * n ≤ (u.drop 7).length := by
      rw [List.length_drop]
      omega
    rw [codeblocks, List.length_append, ih hrest, bchEnc_length, List.length_take_of_le (by omega)]
    omega

/-- Block `k` is the codeblock of chunk `k`, whatever follows the blocks. -/
theorem codeblocks_block {n : Nat} {u : Bytes} (h : 7 * n ≤ u.length) (more : Bytes) {k : Nat} (hk : k < n) :
    ((codeblocks n u ++ more).drop (8 * k)).take 8 = bchEnc ((u.drop (7 * k)).take 7) := by
  induction n generalizing u k with
  | zero => exact absurd hk (Nat.not_lt_zero k)
  | succ n ih =>
    have hfirst : (bchEnc (u.take 7)).length = 8 := by rw [bchEnc_length, List.length_take_of_le (by omega)]
    rw [codeblocks, List.append_assoc]
    cases k with
    | zero => exact List.take_left' hfirst
    | succ k =>
      have hrest : 7 * n ≤ (u.drop 7).length := by
        rw [List.length_drop]
        omega
      rw [Nat.mul_succ, Nat.add_comm (8 * k) 8, ← List.drop_drop, List.drop_left' hfirst,
        ih hrest (Nat.lt_of_succ_lt_succ hk), List.drop_drop, Nat.mul_succ, Nat.add_comm 7]

/-! ### The CLTU of a frame (R201) -/

/-- The frame as it is filled: randomized if CFG.RAND_EN is set (R201). -/
def sentFrame (s : Bytes) (randEn : Bool) : Bytes := if randEn then rand s else s

theorem sentFrame_length (s : Bytes) (randEn : Bool) : (sentFrame s randEn).length = s.length := by
  cases randEn with
  | false => rfl
  | true => exact rand_length s

theorem pad_sentFrame_length (s : Bytes) (randEn : Bool) :
    (pad (sentFrame s randEn)).length = 7 * ((s.length + 6) / 7) := by
  rw [pad_length, sentFrame_length]

theorem cltu_eq (s : Bytes) (randEn : Bool) :
    cltu s randEn =
      consts.cltuStart ++ (codeblocks ((s.length + 6) / 7) (pad (sentFrame s randEn)) ++ consts.cltuTail) := by
  have hblocks : (pad (sentFrame s randEn)).length / consts.bchData = (s.length + 6) / 7 := by
    rw [pad_sentFrame_length]
    exact Nat.mul_div_cancel_left _ (by decide)
  rw [← hblocks, ← List.append_assoc]
  rfl

theorem exec_cltuEncode (inp : Bytes) (s : State) :
    exec (.cltuEncode inp) s = .next (finish (cltu inp s.randEn) s) := rfl

/-- Settles O33: start sequence, codeblocks and tail have the lengths 2, `8 n` and 8. -/
theorem cltuEncodeResult : Obligations.CltuEncodeResult := by
  intro inp s frame filled n
  have hfilled : filled = pad (sentFrame inp s.randEn) := by
    rw [pad_eq_append, sentFrame_length]
    rfl
  have hlen : 7 * n ≤ filled.length := by rw [hfilled, pad_sentFrame_length]
  have hout : cltu inp s.randEn = consts.cltuStart ++ (codeblocks n filled ++ consts.cltuTail) := by
    rw [cltu_eq, hfilled]
  refine ⟨cltu inp s.randEn, exec_cltuEncode inp s, ?_⟩
  rw [hout]
  refine ⟨?_, rfl, ?_, fun k hk => ?_⟩
  · rw [List.length_append, List.length_append, codeblocks_length hlen, Nat.add_assoc]
    rfl
  · rw [← List.drop_drop]
    exact List.drop_left' (codeblocks_length hlen)
  · rw [← List.drop_drop]
    exact codeblocks_block hlen consts.cltuTail hk

end Sys2Proof.Machine
end

section
/-! The stream framer (44_stream_framer.md R232 to R242): one byte's result, cutting a push, and the framer's bounds. -/

namespace Sys2Proof.Machine

/-! ### A push, byte by byte (R236) -/

/-- What FRAMER_PUSH writes after the last byte: OUT is empty and STATUS success (R236). -/
def pushDone (t : State) : State := { t with out := [], status := .done false }

theorem exec_framerPush (inp : Bytes) (s : State) :
    exec (.framerPush inp) s = .next (pushDone (frBytes inp { s with evq := [] })) := rfl

theorem exec_framerPush_byte (b : Byte) (s : State) :
    exec (.framerPush [b]) s = .next (pushDone (frByte { s with evq := [] } b)) := rfl

/-! ### One byte in Searching (R234) -/

/-- The skip count of R37 saturates at `2^32 - 1`. -/
theorem satIncr_eq_min (n : Word) : satIncr n = BitVec.ofNat 32 (min (n.toNat + 1) (2 ^ 32 - 1)) := by
  have hn : n.toNat < 2 ^ 32 := n.isLt
  apply BitVec.eq_of_toNat_eq
  by_cases hmax : n = consts.skipMax
  · rw [satIncr, if_pos hmax, hmax]
    rfl
  · have hne : n.toNat ≠ 2 ^ 32 - 1 := fun h => hmax (BitVec.eq_of_toNat_eq h)
    rw [satIncr, if_neg hmax]
    show (n.toNat + 1) % 2 ^ 32 = min (n.toNat + 1) (2 ^ 32 - 1) % 2 ^ 32
    omega

section
variable {s : State} {m : Bytes} (hmode : s.fmode = .searching) (hsync : s.syncMarker = some m)
include hmode hsync

theorem frByte_of_searching (b : Byte) : frByte s b = frSearch m b s := by
  rw [frByte, hmode, hsync]

theorem frByte_of_marker {b : Byte} (hw : s.fwin ++ [b] = m) :
    frByte s b =
      { s with evq := if s.fskip = 0 then s.evq else s.evq ++ [.skipped s.fskip]
               fskip := 0, fwin := [], fbuf := [], fmode := .accumulating } := by
  rcases frSearch_cases m b s with ⟨-, h⟩ | ⟨hne, -⟩ | ⟨hne, -⟩
  · rw [frByte_of_searching hmode hsync, h]
  · exact absurd hw hne
  · exact absurd hw hne

theorem frByte_of_full_window {b : Byte} (hw : s.fwin ++ [b] ≠ m) (hfull : (s.fwin ++ [b]).length = m.length) :
    frByte s b = { s with fskip := satIncr s.fskip, fwin := (s.fwin ++ [b]).drop 1 } := by
  rcases frSearch_cases m b s with ⟨heq, -⟩ | ⟨-, -, h⟩ | ⟨-, hpart, -⟩
  · exact absurd heq hw
  · rw [frByte_of_searching hmode hsync, h]
  · exact absurd hfull hpart

theorem frByte_of_part_window {b : Byte} (hw : s.fwin ++ [b] ≠ m) (hpart : (s.fwin ++ [b]).length ≠ m.length) :
    frByte s b = { s with fwin := s.fwin ++ [b] } := by
  rcases frSearch_cases m b s with ⟨heq, -⟩ | ⟨-, hfull, -⟩ | ⟨-, -, h⟩
  · exact absurd heq hw
  · exact absurd hfull hpart
  · rw [frByte_of_searching hmode hsync, h]

end

/-! ### One byte in Accumulating (R235, R237) -/

theorem unitComplete_iff (u : Bytes) : unitComplete u = true ↔ 6 ≤ u.length ∧ u.length = 6 + declaredLen u := by
  simp [unitComplete, declaredLen, Nat.add_assoc]

/-- The mode after a decoded unit is home, or Accumulating if FRAMER_REARM says so (R238). -/
theorem afterUnit_eq (s : State) : s.afterUnit = if s.params.rearm = .search then s.home else .accumulating := by
  cases h : s.params.rearm <;> simp [State.afterUnit, State.home, h]

section
variable {u : Bytes} {crcEn : Bool} (hfull : u.length = 6 + declaredLen u)
include hfull

/-- A complete unit that decodes is used up. -/
theorem spDecode_unit_used {p : Packet} {used : Nat} (h : spDecode u crcEn = .ok (p, used)) : used = u.length := by
  rw [spDecode_of_whole hfull.ge] at h
  split at h
  · split at h
    · cases h
    · split at h
      · cases h
        exact hfull.symm
      · cases h
  · cases h
    exact hfull.symm

/-- A complete unit fails with CRC_EN only: it has no room for the trailer, or the trailer is wrong (R162). -/
theorem spDecode_unit_error {c : Code} (h : spDecode u crcEn = .error c) :
    c = .truncatedPacket ∧ crcEn = true ∧ declaredLen u = 1 ∨ c = .checksumMismatch ∧ crcEn = true := by
  rw [spDecode_of_whole hfull.ge] at h
  split at h
  case isFalse => cases h
  case isTrue hcrc =>
    split at h
    case isTrue hone =>
      cases h
      exact .inl ⟨rfl, hcrc, hone⟩
    case isFalse =>
      split at h
      · cases h
      · cases h
        exact .inr ⟨rfl, hcrc⟩

end

section
variable {s : State} (hmode : s.fmode = .accumulating)
include hmode

theorem frByte_of_accumulating (b : Byte) : frByte s b = frAccumulate b s := by
  rw [frByte, hmode]

theorem frByte_of_overflow {b : Byte} (hover : s.maxbuf.toNat < (s.fbuf ++ [b]).length) :
    frByte s b = { s with evq := s.evq ++ [.unitError .frameTooLarge], fbuf := [], fmode := s.home } := by
  rcases frAccumulate_cases b s with ⟨-, h⟩ | ⟨hfit, -⟩ | ⟨hfit, -⟩
  · rw [frByte_of_accumulating hmode, h]
  · exact absurd hover hfit.not_gt
  · exact absurd hover hfit.not_gt

theorem frByte_of_incomplete {b : Byte} (hfit : (s.fbuf ++ [b]).length ≤ s.maxbuf.toNat)
    (hpart : unitComplete (s.fbuf ++ [b]) = false) : frByte s b = { s with fbuf := s.fbuf ++ [b] } := by
  rcases frAccumulate_cases b s with ⟨hover, -⟩ | ⟨-, hfull, -⟩ | ⟨-, -, h⟩
  · exact absurd hover hfit.not_gt
  · simp [hpart] at hfull
  · rw [frByte_of_accumulating hmode, h]

section
variable {b : Byte} (hfit : (s.fbuf ++ [b]).length ≤ s.maxbuf.toNat) (hfull : unitComplete (s.fbuf ++ [b]) = true)
include hfit hfull

theorem frByte_of_complete : frByte s b = frUnit (s.fbuf ++ [b]) s := by
  rcases frAccumulate_cases b s with ⟨hover, -⟩ | ⟨-, -, h⟩ | ⟨-, hpart, -⟩
  · exact absurd hover hfit.not_gt
  · rw [frByte_of_accumulating hmode, h]
  · simp [hfull] at hpart

theorem frByte_of_packet {p : Packet} {used : Nat} (hdec : spDecode (s.fbuf ++ [b]) s.crcEn = .ok (p, used)) :
    frByte s b = { s with evq := s.evq ++ [.packet p], fbuf := [], fmode := s.afterUnit } := by
  rw [frByte_of_complete hmode hfit hfull, frUnit, hdec]
  rfl

theorem frByte_of_unitError {c : Code} (hdec : spDecode (s.fbuf ++ [b]) s.crcEn = .error c) :
    frByte s b = { s with evq := s.evq ++ [.unitError c], fbuf := [], fmode := s.home } := by
  rw [frByte_of_complete hmode hfit hfull, frUnit, hdec]
  rfl

end
end

/-! ### Cutting a push in two (R241): a byte reads neither the events before it, nor OUT, nor STATUS -/

/-- The state with the events `q` before its own, and another OUT and STATUS. -/
def withEarlier (q : List Event) (o : Bytes) (st : Status) (s : State) : State :=
  { s with evq := q ++ s.evq, out := o, status := st }

section
variable (q : List Event) (o : Bytes) (st : Status) (s : State)

theorem emit_withEarlier (e : Event) : emit e (withEarlier q o st s) = withEarlier q o st (emit e s) := by
  simp [emit, withEarlier]

theorem frUnit_withEarlier (u : Bytes) : frUnit u (withEarlier q o st s) = withEarlier q o st (frUnit u s) := by
  have hcrc : (withEarlier q o st s).crcEn = s.crcEn := rfl
  rw [frUnit, frUnit, hcrc]
  split <;> rw [emit_withEarlier] <;> rfl

theorem frAccumulate_withEarlier (b : Byte) :
    frAccumulate b (withEarlier q o st s) = withEarlier q o st (frAccumulate b s) := by
  have hbuf : (withEarlier q o st s).fbuf = s.fbuf := rfl
  have hmax : (withEarlier q o st s).maxbuf = s.maxbuf := rfl
  simp only [frAccumulate, hbuf, hmax, emit_withEarlier, frUnit_withEarlier]
  split_ifs <;> rfl

theorem emitSkipped_withEarlier (n : Word) :
    emitSkipped n (withEarlier q o st s) = withEarlier q o st (emitSkipped n s) := by
  unfold emitSkipped
  split
  · rfl
  · exact emit_withEarlier q o st s _

theorem frSearch_withEarlier (m : Bytes) (b : Byte) :
    frSearch m b (withEarlier q o st s) = withEarlier q o st (frSearch m b s) := by
  have hwin : (withEarlier q o st s).fwin = s.fwin := rfl
  have hskip : (withEarlier q o st s).fskip = s.fskip := rfl
  simp only [frSearch, hwin, hskip, emitSkipped_withEarlier]
  split_ifs <;> rfl

theorem frByte_withEarlier (b : Byte) : frByte (withEarlier q o st s) b = withEarlier q o st (frByte s b) := by
  have hmode : (withEarlier q o st s).fmode = s.fmode := rfl
  have hsync : (withEarlier q o st s).syncMarker = s.syncMarker := rfl
  rw [frByte, frByte, hmode, hsync]
  split
  · exact frSearch_withEarlier q o st s _ b
  · exact frAccumulate_withEarlier q o st s b
  · exact frAccumulate_withEarlier q o st s b

theorem frBytes_withEarlier (inp : Bytes) :
    frBytes inp (withEarlier q o st s) = withEarlier q o st (frBytes inp s) := by
  induction inp generalizing s with
  | nil => rfl
  | cons b l ih => rw [frBytes_cons, frBytes_cons, frByte_withEarlier, ih]

end

/-- A state is what ending a push makes of it, with its own events, OUT and STATUS put back. -/
theorem withEarlier_pushDone (v : State) : withEarlier v.evq v.out v.status { pushDone v with evq := [] } = v := by
  simp [withEarlier, pushDone]

/-- Bytes do to a state what they do once the push is ended and the next begun, the earlier events apart. -/
theorem frBytes_eq_withEarlier (inp : Bytes) (v : State) :
    frBytes inp v = withEarlier v.evq v.out v.status (frBytes inp { pushDone v with evq := [] }) := by
  rw [← frBytes_withEarlier, withEarlier_pushDone]

/-! ### The framer's bounds (R232, R242) -/

theorem framerLegal_of_searching {s : State} (hmode : s.fmode = .searching) :
    s.framerLegal = true ↔ s.syncEn = true ∧ s.fbuf = [] ∧ s.fwin.length < s.syncLen := by
  simp [State.framerLegal, hmode, and_assoc]

theorem framerLegal_of_accumulating {s : State} (hmode : s.fmode = .accumulating) :
    s.framerLegal = true ↔ s.fwin = [] ∧ s.fskip = 0 ∧ s.fbuf.length ≤ s.maxbuf.toNat
      ∧ (s.fbuf.length < 6 ∨ s.fbuf.length < 6 + declaredLen s.fbuf) := by
  simp [State.framerLegal, hmode, and_assoc, declaredLen, Nat.add_assoc]

theorem cfgLegal_iff (s : State) : s.cfgLegal = true ↔ s.syncLen ≤ 8 ∧ (s.syncEn = true → 1 ≤ s.syncLen) := by
  cases h : s.syncEn <;> simp [State.cfgLegal, h]

theorem syncMarker_of_syncEn {s : State} (h : s.syncEn = true) :
    s.syncMarker = some ((wordBytes s.sync0 ++ wordBytes s.sync1).take s.syncLen) := if_pos h

theorem syncMarker_length {s : State} {m : Bytes} (hcfg : s.cfgLegal = true) (hsync : s.syncMarker = some m) :
    m.length = s.syncLen := by
  unfold State.syncMarker at hsync
  split at hsync
  · cases hsync
    simpa [wordBytes] using ((cfgLegal_iff s).mp hcfg).1
  · cases hsync

theorem syncEn_of_home {s : State} (h : s.home = .searching) : s.syncEn = true := by
  by_contra hno
  simp [State.home, hno] at h

theorem syncEn_of_afterUnit {s : State} (h : s.afterUnit = .searching) : s.syncEn = true := by
  by_contra hno
  simp [State.afterUnit, hno] at h

/-- A framer that holds nothing is within its bounds, in Searching if a marker is configured. -/
theorem framerLegal_of_empty {s : State} (hcfg : s.cfgLegal = true) (hbuf : s.fbuf = []) (hwin : s.fwin = [])
    (hskip : s.fskip = 0) (hmode : s.fmode = .searching → s.syncEn = true) : s.framerLegal = true := by
  cases hm : s.fmode with
  | searching =>
    have hlen : 1 ≤ s.syncLen := ((cfgLegal_iff s).mp hcfg).2 (hmode hm)
    rw [framerLegal_of_searching hm, hwin]
    exact ⟨hmode hm, hbuf, hlen⟩
  | accumulating =>
    rw [framerLegal_of_accumulating hm, hbuf]
    exact ⟨hwin, hskip, Nat.zero_le _, .inl (Nat.zero_lt_succ 5)⟩

/-- The length a unit declares is known after its sixth byte. -/
theorem declaredLen_append_byte {u : Bytes} (h : 6 ≤ u.length) (b : Byte) : declaredLen (u ++ [b]) = declaredLen u := by
  rw [declaredLen, be16_append_left u [b] 4 h, declaredLen]

section
variable {s : State} (hcfg : s.cfgLegal = true) (hlegal : s.framerLegal = true)
include hcfg hlegal

theorem framerLegal_frByte_searching (hmode : s.fmode = .searching) (b : Byte) : (frByte s b).framerLegal = true := by
  obtain ⟨hen, hbuf, hwin⟩ := (framerLegal_of_searching hmode).mp hlegal
  have hsync := syncMarker_of_syncEn hen
  have hlen := syncMarker_length hcfg hsync
  rw [frByte_of_searching hmode hsync]
  rcases frSearch_cases _ b s with ⟨-, h⟩ | ⟨-, hfull, h⟩ | ⟨-, hpart, h⟩ <;> rw [h]
  · exact framerLegal_of_empty hcfg rfl rfl rfl nofun
  · refine (framerLegal_of_searching (by exact hmode)).mpr ⟨hen, hbuf, ?_⟩
    show ((s.fwin ++ [b]).drop 1).length < s.syncLen
    rw [List.length_drop, hfull, hlen]
    omega
  · refine (framerLegal_of_searching (by exact hmode)).mpr ⟨hen, hbuf, ?_⟩
    show (s.fwin ++ [b]).length < s.syncLen
    rw [hlen] at hpart
    rw [List.length_append, List.length_singleton] at hpart ⊢
    omega

theorem framerLegal_frByte_accumulating (hmode : s.fmode = .accumulating) (b : Byte) :
    (frByte s b).framerLegal = true := by
  obtain ⟨hwin, hskip, -, hpart⟩ := (framerLegal_of_accumulating hmode).mp hlegal
  rw [frByte_of_accumulating hmode]
  rcases frAccumulate_cases b s with ⟨-, h⟩ | ⟨-, -, h⟩ | ⟨hfit, hnot, h⟩ <;> rw [h]
  · exact framerLegal_of_empty hcfg rfl hwin hskip syncEn_of_home
  · rcases frUnit_cases (s.fbuf ++ [b]) s with ⟨p, n, -, h⟩ | ⟨e, -, h⟩ <;> rw [h]
    · exact framerLegal_of_empty hcfg rfl hwin hskip syncEn_of_afterUnit
    · exact framerLegal_of_empty hcfg rfl hwin hskip syncEn_of_home
  · refine (framerLegal_of_accumulating (by exact hmode)).mpr ⟨hwin, hskip, hfit, ?_⟩
    show (s.fbuf ++ [b]).length < 6 ∨ (s.fbuf ++ [b]).length < 6 + declaredLen (s.fbuf ++ [b])
    have hnot' : ¬(6 ≤ (s.fbuf ++ [b]).length ∧ (s.fbuf ++ [b]).length = 6 + declaredLen (s.fbuf ++ [b])) := by
      rw [← unitComplete_iff, hnot]
      exact Bool.false_ne_true
    have hpos : 1 ≤ declaredLen (s.fbuf ++ [b]) := Nat.le_add_left 1 _
    rw [List.length_append, List.length_singleton] at hnot' ⊢
    by_cases hsix : 6 ≤ s.fbuf.length
    · rw [declaredLen_append_byte hsix] at hnot' ⊢
      omega
    · omega

theorem framerLegal_frByte (b : Byte) : (frByte s b).framerLegal = true := by
  cases hmode : s.fmode with
  | searching => exact framerLegal_frByte_searching hcfg hlegal hmode b
  | accumulating => exact framerLegal_frByte_accumulating hcfg hlegal hmode b

end

theorem cfgLegal_congr {s t : State} (h : t.cfg = s.cfg) : t.cfgLegal = s.cfgLegal := by
  rw [State.cfgLegal, State.cfgLegal, State.syncLen, State.syncLen, State.syncEn, State.syncEn, h]

theorem framerLegal_frBytes {s : State} (hcfg : s.cfgLegal = true) (hlegal : s.framerLegal = true) (inp : Bytes) :
    (frBytes inp s).framerLegal = true := by
  induction inp generalizing s with
  | nil => exact hlegal
  | cons b l ih =>
    have hcfg' : (frByte s b).cfgLegal = true := (cfgLegal_congr (frByte_frame s b).1).trans hcfg
    exact ih hcfg' (framerLegal_frByte hcfg hlegal b)

/-! ### FRAMER_RESET (R240) -/

theorem exec_framerReset_nil (s : State) : exec (.framerReset []) s = .next (finish [] (framerClear s)) := rfl

theorem exec_framerReset_of_ne_nil {inp : Bytes} (h : inp ≠ []) (s : State) :
    exec (.framerReset inp) s = .next (raise .illegalCommand s) :=
  if_pos (mt List.length_eq_zero_iff.mp h)

/-! ### Every command keeps the framer within its bounds -/

/-- Only the field and result registers, OUT, EVQ and STATUS may differ: what a codec command writes (R23, R38). -/
def codecFrame (s t : State) : Prop :=
  t = { s with hdr := t.hdr, crcv := t.crcv, consumed := t.consumed, status := t.status, out := t.out, evq := t.evq }

theorem exec_codecFrame {i : Instr} (hi : isFramerCommand i = false) {s t : State} (ht : exec i s = .next t) :
    codecFrame s t := by
  cases i with
  | crcCompute inp => cases ht; rfl
  | crcVerify inp =>
    rw [exec_crcVerify, execCrcVerify] at ht
    split at ht
    · cases ht; rfl
    · dsimp only at ht
      split at ht <;> cases ht <;> rfl
  | phEncode inp =>
    by_cases h : inp = []
    · subst h
      cases ht; rfl
    · rw [exec_phEncode_of_ne_nil h] at ht
      cases ht; rfl
  | phDecode inp =>
    rcases Nat.lt_or_ge inp.length 6 with h | h
    · rw [exec_phDecode_of_short h] at ht
      cases ht; rfl
    · rw [exec_phDecode_of_long h] at ht
      cases ht; rfl
  | spEncode inp =>
    rw [exec_spEncode] at ht
    split_ifs at ht <;> cases ht <;> rfl
  | spDecode inp =>
    cases h : spDecode inp s.crcEn with
    | error e =>
      rw [exec_spDecode_of_error h] at ht
      cases ht; rfl
    | ok r =>
      rw [exec_spDecode_of_ok h] at ht
      cases ht; rfl
  | bchEncodeBlock inp =>
    by_cases h : inp.length = 7
    · rw [exec_bchEncodeBlock_of_seven h] at ht
      cases ht; rfl
    · rw [exec_bchEncodeBlock_of_ne h] at ht
      cases ht; rfl
  | bchDecodeBlock inp =>
    by_cases h : inp.length = 8
    · rw [exec_bchDecodeBlock_of_eight h] at ht
      cases hdec : bchDec inp <;> rw [hdec] at ht <;> cases ht <;> rfl
    · rw [exec_bchDecodeBlock_of_ne h] at ht
      cases ht; rfl
  | cltuEncode inp => cases ht; rfl
  | randomize inp => cases ht; rfl
  | framerPush inp => cases hi
  | framerReset inp => cases hi

/-- Every command keeps CFG, and the framer within its bounds. -/
theorem exec_keeps_framerLegal {i : Instr} {s t : State} (hcfg : s.cfgLegal = true) (hlegal : s.framerLegal = true)
    (ht : exec i s = .next t) : t.cfgLegal = true ∧ t.framerLegal = true := by
  cases i with
  | framerPush inp =>
    cases ht
    exact ⟨(cfgLegal_congr (frBytes_frame inp { s with evq := [] }).1).trans hcfg,
      framerLegal_frBytes (s := { s with evq := [] }) hcfg hlegal inp⟩
  | framerReset inp =>
    by_cases h : inp = []
    · subst h
      cases ht
      exact ⟨hcfg, framerLegal_of_empty (s := framerClear s) hcfg rfl rfl rfl syncEn_of_home⟩
    · rw [exec_framerReset_of_ne_nil h] at ht
      cases ht
      exact ⟨hcfg, hlegal⟩
  | _ inp =>
    rw [exec_codecFrame rfl ht]
    exact ⟨hcfg, hlegal⟩

/-! ### The statements of 44_stream_framer.md on a byte, a chunk, FRAMER_RESET and the bounds -/

/-- Settles O40: the four results of a byte in Accumulating, and what the decoder answers for a complete unit. -/
theorem accumulatingByte : Obligations.AccumulatingByte := by
  intro s b hmode done u full home
  have hfull (h : full) : unitComplete u = true := (unitComplete_iff u).mpr h
  rw [exec_framerPush_byte]
  refine ⟨fun hover => ?_, fun hfit hpart => ?_, fun p used hfit hf hdec => ?_, fun c hfit hf hdec => ?_⟩
  · rw [frByte_of_overflow (s := { s with evq := [] }) hmode hover]
    rfl
  · have hno : unitComplete u = false := Bool.eq_false_iff.mpr fun h => hpart ((unitComplete_iff u).mp h)
    rw [frByte_of_incomplete (s := { s with evq := [] }) hmode hfit hno]
    rfl
  · rw [frByte_of_packet (s := { s with evq := [] }) hmode hfit (hfull hf) hdec, afterUnit_eq]
    exact ⟨spDecode_unit_used hf.2 hdec, rfl⟩
  · rw [frByte_of_unitError (s := { s with evq := [] }) hmode hfit (hfull hf) hdec]
    refine ⟨(spDecode_unit_error hf.2 hdec).imp_left fun ⟨hc, hcrc, hone⟩ => ⟨hc, hcrc, ?_⟩, rfl⟩
    exact BitVec.eq_of_toNat_eq (Nat.succ.inj hone)

/-- Settles O41: the second push starts where the first ended, with the first's events, OUT and STATUS out of sight. -/
theorem chunkIndependence : Obligations.ChunkIndependence := by
  intro a b s t u ha hb
  cases ha
  cases hb
  rw [exec_framerPush, frBytes_append, frBytes_eq_withEarlier]
  rfl

/-- Settles O43: the bounds are those of `State.framerLegal`, and SYNC_LEN is at most 8. -/
theorem framerBounds : Obligations.FramerBounds := by
  intro i s t hinv ht
  obtain ⟨hcfg, -, -, hlegal, -⟩ := hinv
  obtain ⟨hcfg', hlegal'⟩ := exec_keeps_framerLegal hcfg hlegal ht
  have hmax : t.syncLen ≤ 8 := ((cfgLegal_iff t).mp hcfg').1
  cases hmode : t.fmode with
  | searching =>
    obtain ⟨-, hbuf, hwin⟩ := (framerLegal_of_searching hmode).mp hlegal'
    refine ⟨fun m hsync _ => ?_, ?_, fun _ => hbuf, nofun, ?_⟩
    · rw [syncMarker_length hcfg' hsync]
      omega
    · simp [hbuf]
    · rw [hbuf, List.length_nil]
      omega
  | accumulating =>
    obtain ⟨hwin, -, hbuf, -⟩ := (framerLegal_of_accumulating hmode).mp hlegal'
    refine ⟨nofun, hbuf, nofun, fun _ => hwin, ?_⟩
    rw [hwin, List.length_nil]
    omega

/-- Settles O39: the three results of a byte in Searching. -/
theorem searchingByte : Obligations.SearchingByte := by
  intro s b m hmode hsync done w
  rw [exec_framerPush_byte]
  refine ⟨fun hw => ?_, fun hw hfull => ?_, fun hw hpart => ?_⟩
  · rw [frByte_of_marker (s := { s with evq := [] }) hmode hsync hw]
    rfl
  · rw [frByte_of_full_window (s := { s with evq := [] }) hmode hsync hw hfull, satIncr_eq_min]
    rfl
  · rw [frByte_of_part_window (s := { s with evq := [] }) hmode hsync hw hpart]
    rfl

/-- Settles O42: FRAMER_RESET is `framerClear` with the empty operand, and `IllegalCommand` with any other. -/
theorem framerResetResult : Obligations.FramerResetResult := by
  refine fun inp s => ⟨fun h => ?_, fun h => ?_⟩
  · subst h
    exact exec_framerReset_nil s
  · exact exec_framerReset_of_ne_nil h s

end Sys2Proof.Machine
end

section
/-! Errors (60_exceptions.md R273, R274): how each command can end, said once, and what it writes when it fails. -/

namespace Sys2Proof.Machine

/-! ### The state an error leaves (R273) -/

/-- CONSUMED after a command failed (R33, R273). -/
def consumedOnError (i : Instr) (s : State) : Word :=
  match i with
  | .phDecode _ => 0
  | .spDecode _ => 0
  | _ => s.consumed

/-- CRCV after a command failed (R123, R273). -/
def crcvOnError (i : Instr) (s : State) : Half :=
  match i with
  | .crcVerify inp => if 2 ≤ inp.length then crc16 (inp.take (inp.length - 2)) else s.crcv
  | _ => s.crcv

/-- The state after command `i` failed with error `e` (R273). -/
def errorState (i : Instr) (e : Code) (s : State) : State :=
  { raise e s with consumed := consumedOnError i s, crcv := crcvOnError i s }

theorem errorState_crcVerify_of_short {inp : Bytes} (h : inp.length < 2) (e : Code) (s : State) :
    errorState (.crcVerify inp) e s = raise e s := by
  rw [errorState, crcvOnError, if_neg (not_le.mpr h)]
  rfl

theorem errorState_crcVerify_of_long {inp : Bytes} (h : 2 ≤ inp.length) (e : Code) (s : State) :
    errorState (.crcVerify inp) e s = raise e { s with crcv := crc16 (inp.take (inp.length - 2)) } := by
  rw [errorState, crcvOnError, if_pos h]
  rfl

/-! ### The two commands whose check reads the operand's bytes (R123, R162) -/

theorem execCrcVerify_of_long {inp : Bytes} (h : 2 ≤ inp.length) (s : State) :
    execCrcVerify inp s =
      if crc16 (inp.take (inp.length - 2)) = be16 inp (inp.length - 2) then
        .next (finish [] { s with crcv := crc16 (inp.take (inp.length - 2)) })
      else .next (raise .checksumMismatch { s with crcv := crc16 (inp.take (inp.length - 2)) }) := by
  have hcovered : memRead inp 0 (inp.length - 2) = inp.take (inp.length - 2) := rfl
  simp only [execCrcVerify, if_neg (not_lt.mpr h), hcovered, ne_eq, ite_not]

theorem spDecode_error_mem {b : Bytes} {crcEn : Bool} {e : Code} (h : spDecode b crcEn = .error e) :
    e ∈ [Code.truncatedHeader, .truncatedPacket, .checksumMismatch] := by
  rcases Nat.lt_or_ge b.length 6 with hlen | hlen
  · rw [spDecode_of_short hlen] at h
    cases h
    decide
  rcases Nat.lt_or_ge b.length (6 + declaredLen b) with hcut | hwhole
  · rw [spDecode_of_cut hlen hcut] at h
    cases h
    decide
  · rw [spDecode_of_whole hwhole] at h
    split_ifs at h <;> cases h <;> decide

/-! ### How a command can end -/

/-- Command `i` completes, or ends with one of its codes (R274) and the writes of an error (R273). -/
theorem exec_completes_or_fails (i : Instr) (s : State) :
    (∃ t, exec i s = .next t ∧ t.status.code = .success)
      ∨ ∃ e ∈ endCodes i, exec i s = .next (errorState i e s) := by
  cases i with
  | crcCompute inp => exact .inl ⟨_, exec_crcCompute inp s, rfl⟩
  | crcVerify inp =>
    have hmem : Code.checksumMismatch ∈ endCodes (.crcVerify inp) := by simp [endCodes]
    rw [exec_crcVerify]
    rcases Nat.lt_or_ge inp.length 2 with h | h
    · rw [execCrcVerify_of_short h]
      exact .inr ⟨_, hmem, by rw [errorState_crcVerify_of_short h]⟩
    · rw [execCrcVerify_of_long h]
      split
      · exact .inl ⟨_, rfl, rfl⟩
      · exact .inr ⟨_, hmem, by rw [errorState_crcVerify_of_long h]⟩
  | phEncode inp =>
    by_cases h : inp = []
    · exact .inl ⟨_, h ▸ exec_phEncode_nil s, rfl⟩
    · exact .inr ⟨_, by simp [endCodes], exec_phEncode_of_ne_nil h s⟩
  | phDecode inp =>
    rcases Nat.lt_or_ge inp.length 6 with h | h
    · exact .inr ⟨_, by simp [endCodes], exec_phDecode_of_short h s⟩
    · exact .inl ⟨_, exec_phDecode_of_long h s, rfl⟩
  | spEncode inp =>
    rw [exec_spEncode]
    split_ifs
    · exact .inr ⟨.illegalCommand, by simp [endCodes], rfl⟩
    · exact .inr ⟨.payloadTooLarge, by simp [endCodes], rfl⟩
    · exact .inr ⟨.emptyDataField, by simp [endCodes], rfl⟩
    · exact .inl ⟨_, rfl, rfl⟩
  | spDecode inp =>
    cases h : spDecode inp s.crcEn with
    | error e => exact .inr ⟨e, List.mem_cons_of_mem _ (spDecode_error_mem h), exec_spDecode_of_error h⟩
    | ok r => exact .inl ⟨_, exec_spDecode_of_ok h, rfl⟩
  | bchEncodeBlock inp =>
    by_cases h : inp.length = 7
    · exact .inl ⟨_, exec_bchEncodeBlock_of_seven h s, rfl⟩
    · exact .inr ⟨_, by simp [endCodes], exec_bchEncodeBlock_of_ne h s⟩
  | bchDecodeBlock inp =>
    by_cases h : inp.length = 8
    · rw [exec_bchDecodeBlock_of_eight h]
      cases bchDec inp with
      | none => exact .inr ⟨.uncorrectableBlock, by simp [endCodes], rfl⟩
      | some r => exact .inl ⟨_, rfl, rfl⟩
    · exact .inr ⟨_, by simp [endCodes], exec_bchDecodeBlock_of_ne h s⟩
  | cltuEncode inp => exact .inl ⟨_, exec_cltuEncode inp s, rfl⟩
  | randomize inp => exact .inl ⟨_, exec_randomize inp s, rfl⟩
  | framerPush inp => exact .inl ⟨_, exec_framerPush inp s, rfl⟩
  | framerReset inp =>
    by_cases h : inp = []
    · exact .inl ⟨_, h ▸ exec_framerReset_nil s, rfl⟩
    · exact .inr ⟨_, by simp [endCodes], exec_framerReset_of_ne_nil h s⟩

/-- The same for a given next state. -/
theorem exec_next_cases {i : Instr} {s t : State} (ht : exec i s = .next t) :
    t.status.code = .success ∨ ∃ e ∈ endCodes i, t = errorState i e s := by
  rcases exec_completes_or_fails i s with ⟨u, hu, hok⟩ | ⟨e, he, hu⟩
  · cases ht.symm.trans hu
    exact .inl hok
  · cases ht.symm.trans hu
    exact .inr ⟨e, he, rfl⟩

theorem success_mem_endCodes (i : Instr) : Code.success ∈ endCodes i := by
  cases i <;> exact List.mem_cons_self

/-! ### The statements of 60_exceptions.md -/

/-- Settles O51: a command completes with code 0, which every row lists, or fails with a code of its row. -/
theorem commandEndCodes : Obligations.CommandEndCodes := by
  intro i s t ht
  rcases exec_next_cases ht with hok | ⟨e, he, rfl⟩
  · exact hok ▸ success_mem_endCodes i
  · exact he

/-- Settles O52: a command that does not complete leaves `errorState`. -/
theorem failingCommandWrites : Obligations.FailingCommandWrites := by
  intro i s t ht hfail
  rcases exec_next_cases ht with hok | ⟨e, -, rfl⟩
  · exact absurd hok hfail
  · rfl

end Sys2Proof.Machine
end

section
/-! The decoder (30_encoding.md R80 to R87): a word of the opcode map and its operand are the encoding of exactly one
command, and any other is rejected. -/

namespace Sys2Proof.Machine

/-! ### The opcode map, read in both directions (R80, R82) -/

theorem commandWord_statement (i : Instr) : Laws.CommandWord.Statement i := by
  cases i with
  | crcCompute inp => exact Laws.CommandWord.crcCompute inp
  | crcVerify inp => exact Laws.CommandWord.crcVerify inp
  | phEncode inp => exact Laws.CommandWord.phEncode inp
  | phDecode inp => exact Laws.CommandWord.phDecode inp
  | spEncode inp => exact Laws.CommandWord.spEncode inp
  | spDecode inp => exact Laws.CommandWord.spDecode inp
  | bchEncodeBlock inp => exact Laws.CommandWord.bchEncodeBlock inp
  | bchDecodeBlock inp => exact Laws.CommandWord.bchDecodeBlock inp
  | cltuEncode inp => exact Laws.CommandWord.cltuEncode inp
  | randomize inp => exact Laws.CommandWord.randomize inp
  | framerPush inp => exact Laws.CommandWord.framerPush inp
  | framerReset inp => exact Laws.CommandWord.framerReset inp

/-- A word is its two fields side by side (R80). -/
theorem rsvField_append_opcField (w : Word) : rsvField w ++ opcField w = w :=
  BitVec.extractLsb'_append_extractLsb'_eq_extractLsb' (by rfl) |>.trans BitVec.extractLsb'_eq_self

theorem word_eq_of_fields {v w : Word} (hrsv : rsvField v = rsvField w) (hopc : opcField v = opcField w) : v = w := by
  rw [← rsvField_append_opcField v, hrsv, hopc, rsvField_append_opcField]

/-- The command the map gives an opcode has this opcode in its word, and the operand it was issued with. -/
theorem decodeOpcode_sound {opc : Byte} {inp : Bytes} {i : Instr} (h : decodeOpcode opc inp = some i) :
    opcField i.word = opc ∧ i.operand = inp := by
  unfold decodeOpcode at h
  split at h <;> cases h <;> rename_i hopc <;> exact ⟨BitVec.eq_of_toNat_eq hopc.symm, rfl⟩

theorem decode_eq_ok_iff {inMax : Nat} {c : Command} {i : Instr} :
    decode inMax c = .ok i ↔
      rsvField c.word = 0 ∧ decodeOpcode (opcField c.word) c.operand = some i ∧ c.operand.length ≤ inMax := by
  rw [decode]
  by_cases hrsv : rsvField c.word = 0
  · rw [if_neg (not_not.mpr hrsv)]
    cases hopc : decodeOpcode (opcField c.word) c.operand with
    | none => simp
    | some j =>
      by_cases hlen : c.operand.length ≤ inMax
      · simp [hrsv, hlen, not_lt.mpr hlen]
      · simp [hlen, not_le.mp hlen]
  · rw [if_pos hrsv]
    exact ⟨nofun, fun ⟨h, _⟩ => absurd h hrsv⟩

theorem wellFormed_iff (i : Instr) (inMax : Nat) : i.wellFormed inMax = true ↔ i.operand.length ≤ inMax :=
  decide_eq_true_iff

/-- Settles O1: the decoder reads the opcode from the word, and with RSV 0 the opcode determines the word. -/
theorem decodeEncodeAgree : Obligations.DecodeEncodeAgree := by
  intro inMax c i
  obtain ⟨hrsv, hopc, -⟩ := commandWord_statement i
  rw [decode_eq_ok_iff, wellFormed_iff]
  constructor
  · rintro ⟨hrsv', hopc', hlen⟩
    obtain ⟨hfield, hoperand⟩ := decodeOpcode_sound hopc'
    have hword : i.word = c.word := word_eq_of_fields (hrsv.trans hrsv'.symm) hfield
    exact ⟨by rw [encode, hword, hoperand], hoperand ▸ hlen⟩
  · rintro ⟨rfl, hlen⟩
    exact ⟨hrsv, hopc, hlen⟩

theorem decode_encode {i : Instr} {inMax : Nat} (h : i.operand.length ≤ inMax) : decode inMax (encode i) = .ok i :=
  (decodeEncodeAgree inMax (encode i) i).mpr ⟨rfl, (wellFormed_iff i inMax).mpr h⟩

theorem encode_injective {i j : Instr} (h : encode i = encode j) : i = j := by
  have hi := decode_encode (le_refl i.operand.length)
  rw [h, (decodeEncodeAgree _ _ j).mpr ⟨rfl, _⟩] at hi
  · exact (Except.ok.inj hi).symm
  · rw [wellFormed_iff]
    exact (congrArg (fun c => c.operand.length) h).ge

/-- Settles O2: each word is the encoding of its command, so it decodes to it. -/
theorem opcodeMapWordsDecode : Obligations.OpcodeMapWordsDecode :=
  ⟨fun _ inp h =>
    ⟨decode_encode (i := .crcCompute inp) h, decode_encode (i := .crcVerify inp) h, decode_encode (i := .phEncode inp) h,
      decode_encode (i := .phDecode inp) h, decode_encode (i := .spEncode inp) h, decode_encode (i := .spDecode inp) h,
      decode_encode (i := .bchEncodeBlock inp) h, decode_encode (i := .bchDecodeBlock inp) h,
      decode_encode (i := .cltuEncode inp) h, decode_encode (i := .randomize inp) h,
      decode_encode (i := .framerPush inp) h, decode_encode (i := .framerReset inp) h⟩,
    rfl, rfl, rfl, rfl, rfl⟩

/-! ### A step on an issued command (R81, R83) -/

theorem step_of_pending {s : State} {a : HostAction} {rest : List HostAction} (h : s.pending = a :: rest) :
    step s = perform a { s with pending := rest } := by
  rw [step, h]

theorem step_of_decoded {s : State} {c : Command} {rest : List HostAction} {i : Instr} (hp : s.pending = .cmd c :: rest)
    (hd : decode s.params.inMax c = .ok i) : step s = exec i { s with pending := rest } := by
  rw [step_of_pending hp, perform, runCommand]
  simp only [hd]

theorem step_of_rejected {s : State} {c : Command} {rest : List HostAction} {e : DecodeError}
    (hp : s.pending = .cmd c :: rest) (hd : decode s.params.inMax c = .error e) :
    step s = .next (raise .illegalCommand { s with pending := rest }) := by
  rw [step_of_pending hp, perform, runCommand]
  simp only [hd]

/-- Settles O3: the step performs the pending `CMD`, and running a command that decodes is `exec` of it. -/
theorem stepRunsDecodedCommand : Obligations.StepRunsDecodedCommand := fun _ _ _ _ hp hd => step_of_decoded hp hd

/-- The twelve commands with operand `inp`, in the order of R82. -/
def commandsWith (inp : Bytes) : List Instr :=
  [.crcCompute inp, .crcVerify inp, .phEncode inp, .phDecode inp, .spEncode inp, .spDecode inp, .bchEncodeBlock inp,
    .bchDecodeBlock inp, .cltuEncode inp, .randomize inp, .framerPush inp, .framerReset inp]

theorem mem_commandsWith (i : Instr) : i ∈ commandsWith i.operand := by
  cases i <;> simp [commandsWith, Instr.operand]

theorem operand_of_mem_commandsWith {inp : Bytes} {i : Instr} (h : i ∈ commandsWith inp) : i.operand = inp := by
  simp only [commandsWith, List.mem_cons, List.not_mem_nil, or_false] at h
  rcases h with rfl | rfl | rfl | rfl | rfl | rfl | rfl | rfl | rfl | rfl | rfl | rfl <;> rfl

/-- A word is one of the twelve exactly when it is some command's. -/
theorem mem_words_iff (w : Word) (inp : Bytes) :
    w.toNat ∈ [0x01, 0x02, 0x10, 0x11, 0x20, 0x21, 0x30, 0x31, 0x32, 0x33, 0x40, 0x41] ↔ ∃ i, encode i = ⟨w, inp⟩ := by
  have hlist : [0x01, 0x02, 0x10, 0x11, 0x20, 0x21, 0x30, 0x31, 0x32, 0x33, 0x40, 0x41]
      = (commandsWith inp).map fun i => i.word.toNat := rfl
  rw [hlist, List.mem_map]
  constructor
  · rintro ⟨i, hi, hw⟩
    exact ⟨i, by rw [encode, BitVec.eq_of_toNat_eq hw, operand_of_mem_commandsWith hi]⟩
  · rintro ⟨i, hi⟩
    cases hi
    exact ⟨i, mem_commandsWith i, rfl⟩

/-- Settles O4: a word of the map is the encoding of one command, which the decoder gives back; any other is rejected. -/
theorem commandWordsRunOrAreIllegal : Obligations.CommandWordsRunOrAreIllegal := by
  intro s w inp rest hp ok
  constructor
  · rintro ⟨hw, hlen⟩
    obtain ⟨i, hi⟩ := (mem_words_iff w inp).mp hw
    have hop : i.operand = inp := congrArg Command.operand hi
    refine ⟨i, hi, fun j hj => encode_injective (hj.trans hi.symm), step_of_decoded hp ?_⟩
    rw [← hi, decode_encode (hop ▸ hlen)]
  · intro hno
    cases hd : decode s.params.inMax ⟨w, inp⟩ with
    | error e => exact step_of_rejected hp hd
    | ok i =>
      obtain ⟨hi, hfits⟩ := (decodeEncodeAgree _ _ i).mp hd
      have hop : i.operand = inp := congrArg Command.operand hi
      have hlen : inp.length ≤ s.params.inMax := hop ▸ (wellFormed_iff i _).mp hfits
      exact absurd ⟨(mem_words_iff w inp).mpr ⟨i, hi⟩, hlen⟩ hno

/-! ### Assembly (R86, R87) -/

theorem commandNamed_mnemonicOf (i : Instr) : commandNamed (mnemonicOf i) i.operand = some i := by
  cases i <;> rfl

/-- Settles O48: a mnemonic names its command again, and the two second names those of RANDOMIZE and CRC_VERIFY. -/
theorem assemblyNamesCommands : Obligations.AssemblyNamesCommands := by
  refine fun s ps => ⟨fun i hi => ?_, rfl, rfl⟩
  rw [assemble, ← hi, commandNamed_mnemonicOf]
  rfl

end Sys2Proof.Machine
end

section
/-! The host's decode path for a CLTU (43_bch_cltu.md R203) and the syndrome of an error (R193): a codeblock with at most one
flipped bit decodes to its data. -/

namespace Sys2Proof.Machine

/-- Settles O31: a codeblock's polynomial has remainder 0, and a flipped bit adds an error term to the received one. -/
theorem syndromeOfErrors : Obligations.SyndromeOfErrors := by
  refine ⟨fun d hd => bchRem_receivedPoly_bchEnc hd, fun c w hc hw => ?_, fun c hc => ?_⟩
  · rw [syndrome, receivedPoly_flipBit hc hw, bchRem_add]
    rfl
  · rw [syndrome, receivedPoly_flipBit_fill hc]
    rfl

/-! ### One block (R198) -/

/-- A received block: the block sent, with wire bit `w` flipped if there is one. -/
def receiveBlock (w : Option (Fin 64)) (c : Bytes) : Bytes :=
  match w with
  | some v => flipBit v.val c
  | none => c

theorem receiveBlock_length (w : Option (Fin 64)) (c : Bytes) : (receiveBlock w c).length = c.length := by
  cases w with
  | none => rfl
  | some v => exact flipBit_length v.val c

theorem bchDec_receiveBlock {d : Bytes} (hd : d.length = 7) (w : Option (Fin 64)) :
    ∃ k, bchDec (receiveBlock w (bchEnc d)) = some (d, k) := by
  obtain ⟨hclean, hfill, hone, -⟩ := bchCorrectsOneDetectsTwo.1 d hd
  match w with
  | none => exact ⟨false, hclean⟩
  | some v =>
    by_cases hv : v.val < 63
    · exact ⟨true, hone v.val hv⟩
    · have h63 : v.val = 63 := by omega
      exact ⟨false, by rw [receiveBlock, h63, hfill]⟩

/-! ### The blocks in order (R201, R203) -/

theorem flipOnePerBlock_succ (e : Nat → Option (Fin 64)) (k n : Nat) (c : Bytes) :
    flipOnePerBlock e k (n + 1) c = receiveBlock (e k) (c.take 8) ++ flipOnePerBlock e (k + 1) n (c.drop 8) := by
  rw [flipOnePerBlock]
  cases e k <;> rfl

theorem flipOnePerBlock_length (e : Nat → Option (Fin 64)) {k n : Nat} {c : Bytes} (h : c.length = 8 * n) :
    (flipOnePerBlock e k n c).length = 8 * n := by
  induction n generalizing k c with
  | zero => rfl
  | succ n ih =>
    have hrest : (c.drop 8).length = 8 * n := by
      rw [List.length_drop]
      omega
    rw [flipOnePerBlock_succ, List.length_append, receiveBlock_length, ih hrest, List.length_take]
    omega

theorem flipOnePerBlock_none {k n : Nat} {c : Bytes} (h : c.length = 8 * n) :
    flipOnePerBlock (fun _ => none) k n c = c := by
  induction n generalizing k c with
  | zero => exact (List.length_eq_zero_iff.mp h).symm
  | succ n ih =>
    have hrest : (c.drop 8).length = 8 * n := by
      rw [List.length_drop]
      omega
    rw [flipOnePerBlock_succ, ih hrest]
    exact List.take_append_drop 8 c

theorem decodeBlocks_append {c rest d u : Bytes} {k : Bool} {n : Nat} (hc : c.length = 8)
    (hd : bchDec c = some (d, k)) (hrest : decodeBlocks n rest = some u) :
    decodeBlocks (n + 1) (c ++ rest) = some (d ++ u) := by
  rw [decodeBlocks, List.take_left' hc, List.drop_left' hc, hd, hrest]

/-- Every codeblock is decoded to its chunk, with at most one flipped bit in each. -/
theorem decodeBlocks_flipOnePerBlock (e : Nat → Option (Fin 64)) {k n : Nat} {u : Bytes} (h : u.length = 7 * n) :
    decodeBlocks n (flipOnePerBlock e k n (codeblocks n u)) = some u := by
  induction n generalizing k u with
  | zero => rw [List.length_eq_zero_iff.mp h, decodeBlocks]
  | succ n ih =>
    have hchunk : (u.take 7).length = 7 := List.length_take_of_le (by omega)
    have hblock : (bchEnc (u.take 7)).length = 8 := by rw [bchEnc_length, hchunk]
    have hrest : (u.drop 7).length = 7 * n := by
      rw [List.length_drop]
      omega
    obtain ⟨b, hb⟩ := bchDec_receiveBlock hchunk (e k)
    rw [flipOnePerBlock_succ, codeblocks, List.take_left' hblock, List.drop_left' hblock,
      decodeBlocks_append (by rw [receiveBlock_length, hblock]) hb (ih hrest), List.take_append_drop]

/-! ### The frame (R203) -/

/-- The frame is the front of the filled one. -/
theorem take_pad (s : Bytes) : (pad s).take s.length = s := by
  rw [pad_eq_append, List.take_left]

theorem sentFrame_sentFrame (s : Bytes) (randEn : Bool) : sentFrame (sentFrame s randEn) randEn = s := by
  cases randEn with
  | false => rfl
  | true => exact rand_rand s

/-- The path takes what stands between a start of 2 and a tail of 8 bytes, whole blocks that decode to the filled frame. -/
theorem hostCltuDecode_of_blocks {frame start body tail : Bytes} {randEn : Bool} {n : Nat} (hstart : start.length = 2)
    (htail : tail.length = 8) (hbody : body.length = 8 * n)
    (hblocks : decodeBlocks n body = some (pad (sentFrame frame randEn))) :
    hostCltuDecode frame.length randEn (start ++ (body ++ tail)) = some frame := by
  have hlen : (start ++ (body ++ tail)).length - 10 = body.length := by
    rw [List.length_append, List.length_append]
    omega
  have hcut : ((start ++ (body ++ tail)).drop 2).take ((start ++ (body ++ tail)).length - 10) = body := by
    rw [hlen, List.drop_left' hstart, List.take_left]
  have hcount : body.length / 8 = n := by omega
  have htake := take_pad (sentFrame frame randEn)
  rw [sentFrame_length] at htake
  simp only [hostCltuDecode, hcut, hcount, hblocks, Option.map_some, htake]
  exact congrArg some (sentFrame_sentFrame frame randEn)

/-- Settles O34: the blocks of a CLTU decode to the filled frame, whatever single bits are flipped in them; the clean CLTU
is the one in which none is. -/
theorem cltuDecodePathRecoversFrame : Obligations.CltuDecodePathRecoversFrame := by
  intro frame randEn e c n
  have hfilled := pad_sentFrame_length frame randEn
  have hlen : (codeblocks n (pad (sentFrame frame randEn))).length = 8 * n := codeblocks_length hfilled.ge
  have hc : c = consts.cltuStart ++ (codeblocks n (pad (sentFrame frame randEn)) ++ consts.cltuTail) :=
    cltu_eq frame randEn
  have hdecode (e : Nat → Option (Fin 64)) :
      hostCltuDecode frame.length randEn
        (consts.cltuStart ++ (flipOnePerBlock e 0 n (codeblocks n (pad (sentFrame frame randEn))) ++ consts.cltuTail))
        = some frame :=
    hostCltuDecode_of_blocks rfl rfl (flipOnePerBlock_length e hlen) (decodeBlocks_flipOnePerBlock e hfilled)
  constructor
  · rw [hc, ← hdecode fun _ => none, flipOnePerBlock_none hlen]
  · have hstart : c.take 2 = consts.cltuStart := by
      rw [hc]
      rfl
    have hbody : (c.drop 2).take (8 * n) = codeblocks n (pad (sentFrame frame randEn)) := by
      rw [hc]
      exact List.take_left' hlen
    have htail : c.drop (2 + 8 * n) = consts.cltuTail := by
      rw [hc, ← List.drop_drop]
      exact List.drop_left' hlen
    rw [hstart, hbody, htail, List.append_assoc, hdecode e]

end Sys2Proof.Machine
end

section
/-! What a command writes and what it leaves (10_state.md R23, R32, R33, R38; 60_exceptions.md R283): the state of every
command that completes, said once, and the frames that follow from it. -/

namespace Sys2Proof.Machine

/-! ### The state after a command that completes -/

/-- `Completes s i t`: command `i` completes from `s` in the state `t`. -/
inductive Completes (s : State) : Instr → State → Prop
  | crcCompute (inp : Bytes) :
      Completes s (.crcCompute inp) (finish (bytes16 (crc16 inp)) { s with crcv := crc16 inp })
  | crcVerify (inp : Bytes) :
      Completes s (.crcVerify inp) (finish [] { s with crcv := crc16 (inp.take (inp.length - 2)) })
  | phEncode : Completes s (.phEncode []) (finish (phPack s.hdr) s)
  | phDecode (inp : Bytes) :
      Completes s (.phDecode inp) (finish [] { s with hdr := phUnpack (memRead inp 0 6), consumed := 6 })
  | spEncode (inp : Bytes) : Completes s (.spEncode inp) (spEncoded inp s)
  | spDecode (inp : Bytes) (p : Packet) (used : Nat) (h : spDecode inp s.crcEn = .ok (p, used)) :
      Completes s (.spDecode inp)
        (finish p.data { s with hdr := p.hdr, crcv := p.crc.getD s.crcv, consumed := BitVec.ofNat 32 used })
  | bchEncodeBlock (inp : Bytes) : Completes s (.bchEncodeBlock inp) (finish (bchEnc inp) s)
  | bchDecodeBlock (inp d : Bytes) (k : Bool) : Completes s (.bchDecodeBlock inp) (finishWith d k s)
  | cltuEncode (inp : Bytes) : Completes s (.cltuEncode inp) (finish (cltu inp s.randEn) s)
  | randomize (inp : Bytes) : Completes s (.randomize inp) (finish (rand inp) s)
  | framerPush (inp : Bytes) : Completes s (.framerPush inp) (pushDone (frBytes inp { s with evq := [] }))
  | framerReset : Completes s (.framerReset []) (finish [] (framerClear s))

/-- STATUS.CODE 0 says that the command completed: no error leaves it. -/
theorem completes_of_success {i : Instr} {s t : State} (ht : exec i s = .next t) (hok : t.status.code = .success) :
    Completes s i t := by
  cases i with
  | crcCompute inp => cases ht; exact .crcCompute inp
  | crcVerify inp =>
    rw [exec_crcVerify] at ht
    rcases Nat.lt_or_ge inp.length 2 with h | h
    · rw [execCrcVerify_of_short h] at ht
      cases ht; cases hok
    · rw [execCrcVerify_of_long h] at ht
      split at ht
      · cases ht; exact .crcVerify inp
      · cases ht; cases hok
  | phEncode inp =>
    by_cases h : inp = []
    · subst h
      cases ht; exact .phEncode
    · rw [exec_phEncode_of_ne_nil h] at ht
      cases ht; cases hok
  | phDecode inp =>
    rcases Nat.lt_or_ge inp.length 6 with h | h
    · rw [exec_phDecode_of_short h] at ht
      cases ht; cases hok
    · rw [exec_phDecode_of_long h] at ht
      cases ht; exact .phDecode inp
  | spEncode inp =>
    obtain ⟨rfl, -, -⟩ := spEncode_success ht hok
    exact .spEncode inp
  | spDecode inp =>
    cases h : spDecode inp s.crcEn with
    | error e =>
      rw [exec_spDecode_of_error h] at ht
      cases ht
      change e = .success at hok
      exact absurd (hok ▸ spDecode_error_mem h) (by decide)
    | ok r =>
      rw [exec_spDecode_of_ok h] at ht
      cases ht; exact .spDecode inp r.1 r.2 h
  | bchEncodeBlock inp =>
    by_cases h : inp.length = 7
    · rw [exec_bchEncodeBlock_of_seven h] at ht
      cases ht; exact .bchEncodeBlock inp
    · rw [exec_bchEncodeBlock_of_ne h] at ht
      cases ht; cases hok
  | bchDecodeBlock inp =>
    by_cases h : inp.length = 8
    · rw [exec_bchDecodeBlock_of_eight h] at ht
      cases hdec : bchDec inp <;> rw [hdec] at ht <;> cases ht
      · cases hok
      · exact .bchDecodeBlock inp _ _
    · rw [exec_bchDecodeBlock_of_ne h] at ht
      cases ht; cases hok
  | cltuEncode inp => cases ht; exact .cltuEncode inp
  | randomize inp => cases ht; exact .randomize inp
  | framerPush inp => cases ht; exact .framerPush inp
  | framerReset inp =>
    by_cases h : inp = []
    · subst h
      cases ht; exact .framerReset
    · rw [exec_framerReset_of_ne_nil h] at ht
      cases ht; cases hok

/-- What a command can do: complete, or leave the state of one of its errors (R273, R274). -/
theorem exec_inversion {i : Instr} {s t : State} (ht : exec i s = .next t) :
    Completes s i t ∨ ∃ e ∈ endCodes i, t = errorState i e s :=
  (exec_next_cases ht).imp_left (completes_of_success ht)

/-! ### Setup and framer (R23, R237) -/

theorem codecFrame.sameSetup {s t : State} (h : codecFrame s t) : sameSetup s t := by
  rw [h]
  simp [Machine.sameSetup]

theorem codecFrame.sameFramer {s t : State} (h : codecFrame s t) : sameFramer s t := by
  rw [h]
  simp [Machine.sameFramer]

theorem errorState_sameSetup (i : Instr) (e : Code) (s : State) : sameSetup s (errorState i e s) := by
  simp [sameSetup, errorState]

/-- The codec's registers (R23): the field registers, CRCV and CONSUMED. -/
abbrev sameCodec (s t : State) : Prop := t.hdr = s.hdr ∧ t.crcv = s.crcv ∧ t.consumed = s.consumed

/-- A framer command writes neither the setup nor the codec's registers, and has no byte result. -/
theorem exec_framer_frame {i : Instr} (hi : isFramerCommand i = true) {s t : State} (ht : exec i s = .next t) :
    sameSetup s t ∧ sameCodec s t ∧ t.out = [] := by
  rcases exec_inversion ht with hdone | ⟨e, -, rfl⟩
  · cases hdone with
    | framerPush inp =>
      obtain ⟨hcfg, hs0, hs1, hmax, hhdr, hsh, hcrcv, -, hcon, -, hparams, hpend, hrd⟩ :=
        frBytes_frame inp { s with evq := [] }
      exact ⟨⟨hcfg, hs0, hs1, hmax, hsh, hparams, hpend, hrd⟩, ⟨hhdr, hcrcv, hcon⟩, rfl⟩
    | framerReset => exact ⟨by simp [sameSetup], by simp [sameCodec], rfl⟩
    | _ => cases hi
  · refine ⟨errorState_sameSetup i e s, ?_, rfl⟩
    cases i <;> cases hi <;> exact ⟨rfl, rfl, rfl⟩

/-- Settles O53: a codec command has the frame `codecFrame`, a framer command leaves all but the framer. -/
theorem commandsKeepSetup : Obligations.CommandsKeepSetup := by
  intro i s t ht
  cases hi : isFramerCommand i with
  | false => exact (exec_codecFrame hi ht).sameSetup
  | true => exact (exec_framer_frame hi ht).1

/-- Settles O56: the same two frames. -/
theorem codecAndFramerApart : Obligations.CodecAndFramerApart := fun _ _ _ ht =>
  ⟨fun hi => (exec_codecFrame hi ht).sameFramer, fun hi => (exec_framer_frame hi ht).2.1⟩

/-! ### The result and field registers (R32, R33, R145) -/

/-- A packet decoded without CRC_EN carries no CRC, and one decoded with it does (R162). -/
theorem spDecode_ok_crc {b : Bytes} {crcEn : Bool} {p : Packet} {used : Nat} (h : spDecode b crcEn = .ok (p, used)) :
    p.crc.isSome = crcEn := by
  rcases Nat.lt_or_ge b.length 6 with hlen | hlen
  · rw [spDecode_of_short hlen] at h
    cases h
  rcases Nat.lt_or_ge b.length (6 + declaredLen b) with hcut | hwhole
  · rw [spDecode_of_cut hlen hcut] at h
    cases h
  · rw [spDecode_of_whole hwhole] at h
    split at h
    case isFalse hcrc =>
      cases h
      exact (Bool.eq_false_iff.mpr hcrc).symm
    case isTrue hcrc =>
      split_ifs at h
      cases h
      exact hcrc.symm

/-- Settles O54: the commands that complete, one by one; an error writes CONSUMED and CRCV for the commands excluded only. -/
theorem resultRegistersFrame : Obligations.ResultRegistersFrame := by
  intro i s t ht
  rcases exec_inversion ht with hdone | ⟨e, -, rfl⟩
  · cases hdone with
    | crcCompute inp => exact ⟨fun _ _ => rfl, fun h => absurd rfl (h inp)⟩
    | crcVerify inp => exact ⟨fun _ _ => rfl, fun _ h => absurd rfl (h inp)⟩
    | phDecode inp => exact ⟨fun h => absurd rfl (h inp), fun _ _ _ => rfl⟩
    | spEncode inp =>
      refine ⟨fun _ _ => rfl, fun _ _ h => ?_⟩
      rcases h with ⟨h, -⟩ | hcrc
      · exact absurd rfl (h inp)
      · simp [spEncoded, hcrc]
    | spDecode inp p used hdec =>
      refine ⟨fun _ h => absurd rfl (h inp), fun _ _ h => ?_⟩
      rcases h with ⟨-, h⟩ | hcrc
      · exact absurd rfl (h inp)
      · have hnone : p.crc = none := by simpa [hcrc] using spDecode_ok_crc hdec
        simp [hnone]
    | framerPush inp =>
      obtain ⟨-, ⟨-, hcrcv, hcon⟩, -⟩ := exec_framer_frame rfl (exec_framerPush inp s)
      exact ⟨fun _ _ => hcon, fun _ _ _ => hcrcv⟩
    | _ => exact ⟨fun _ _ => rfl, fun _ _ _ => rfl⟩
  · cases i with
    | crcVerify inp => exact ⟨fun _ _ => rfl, fun _ h => absurd rfl (h inp)⟩
    | phDecode inp => exact ⟨fun h => absurd rfl (h inp), fun _ _ _ => rfl⟩
    | spDecode inp => exact ⟨fun _ h => absurd rfl (h inp), fun _ _ _ => rfl⟩
    | _ => exact ⟨fun _ _ => rfl, fun _ _ _ => rfl⟩

/-- Settles O21: of the commands that complete two write the header and one its length; no error writes any of it. -/
theorem fieldRegistersFrame : Obligations.FieldRegistersFrame := by
  refine ⟨fun n => BitVec.toNat_add n 1, fun i s t ht hph hsp => ?_⟩
  have hsame (h : t.hdr = s.hdr) :
      { t.hdr with pdl := s.hdr.pdl } = s.hdr ∧ ((∀ inp, i ≠ .spEncode inp) → t.hdr = s.hdr) := by
    rw [h]
    exact ⟨rfl, fun _ => rfl⟩
  rcases exec_inversion ht with hdone | ⟨e, -, rfl⟩
  · cases hdone with
    | phDecode inp => exact absurd rfl (hph inp)
    | spDecode inp => exact absurd rfl (hsp inp)
    | spEncode inp => exact ⟨rfl, fun h => absurd rfl (h inp)⟩
    | framerPush inp =>
      obtain ⟨-, ⟨hhdr, -, -⟩, -⟩ := exec_framer_frame rfl (exec_framerPush inp s)
      exact hsame hhdr
    | _ => exact hsame rfl
  · exact hsame rfl

/-! ### OUT and EVQ (R38) -/

/-- Settles O55: every command that completes but FRAMER_PUSH finishes with no event, and an error empties both buffers. -/
theorem resultBuffersRewritten : Obligations.ResultBuffersRewritten := by
  intro i s t ht
  refine ⟨fun hpush => ?_, fun hfail => ?_, ?_⟩
  · rcases exec_inversion ht with hdone | ⟨e, -, rfl⟩
    · cases hdone with
      | framerPush inp => exact absurd rfl (hpush inp)
      | _ => rfl
    · rfl
  · rcases exec_next_cases ht with hok | ⟨e, -, rfl⟩
    · exact absurd hok hfail
    · exact ⟨rfl, rfl⟩
  · rintro ⟨inp, hi⟩
    rcases exec_inversion ht with hdone | ⟨e, -, rfl⟩
    · rcases hi with rfl | rfl | rfl | rfl <;> cases hdone <;> rfl
    · rfl

/-! ### A codec command reads its operand and the registers its rule names (R283) -/

/-- What two runs of the same command have in common: the results, and the registers the command writes. -/
def sameResult (i : Instr) (s t : State) : Prop :=
  t.out = s.out ∧ t.status = s.status ∧ t.evq = s.evq ∧ sameWritten i s t

theorem sameResult_finish {i : Instr} {o o' : Bytes} {s t : State} (ho : o' = o)
    (hw : sameWritten i (finish o s) (finish o' t)) : sameResult i (finish o s) (finish o' t) := by
  subst ho
  exact ⟨rfl, rfl, rfl, hw⟩

theorem encodedHeader_congr {s t : State} (hcrc : t.crcEn = s.crcEn) (hhdr : { t.hdr with pdl := s.hdr.pdl } = s.hdr)
    (inp : Bytes) : encodedHeader inp t = encodedHeader inp s := by
  rw [encodedHeader, encodedHeader, trailingSize, trailingSize, hcrc, ← hhdr]

theorem spEncode_sameResult {inp : Bytes} {s t s' t' : State} (hread : readsSame (.spEncode inp) s t)
    (hs : exec (.spEncode inp) s = .next s') (ht : exec (.spEncode inp) t = .next t') :
    sameResult (.spEncode inp) s' t' := by
  obtain ⟨hcrc, hsh, hhdr⟩ := hread
  have hsize : trailingSize inp t = trailingSize inp s := by rw [trailingSize, trailingSize, hcrc]
  have hheader := encodedHeader_congr hcrc hhdr inp
  rw [exec_spEncode] at hs ht
  rw [hsh, hsize] at ht
  split_ifs at hs ht
  · cases hs; cases ht
    exact ⟨rfl, rfl, rfl, nofun⟩
  · cases hs; cases ht
    exact ⟨rfl, rfl, rfl, nofun⟩
  · cases hs; cases ht
    exact ⟨rfl, rfl, rfl, nofun⟩
  · cases hs; cases ht
    refine sameResult_finish (by rw [hcrc, hheader]) fun _ => ⟨hheader, fun hen => ?_⟩
    have hen' : s.crcEn = true := hen
    change (spEncoded inp t).crcv = (spEncoded inp s).crcv
    rw [spEncoded_crcv hen', spEncoded_crcv (hcrc.trans hen'), hheader]

theorem spDecode_sameResult {inp : Bytes} {s t s' t' : State} (hcrc : t.crcEn = s.crcEn)
    (hs : exec (.spDecode inp) s = .next s') (ht : exec (.spDecode inp) t = .next t') :
    sameResult (.spDecode inp) s' t' := by
  cases h : spDecode inp s.crcEn with
  | error e =>
    rw [exec_spDecode_of_error h] at hs
    rw [exec_spDecode_of_error (hcrc ▸ h)] at ht
    cases hs; cases ht
    refine ⟨rfl, rfl, rfl, rfl, fun hok => ?_⟩
    change e = .success at hok
    exact absurd (hok ▸ spDecode_error_mem h) (by decide)
  | ok r =>
    rw [exec_spDecode_of_ok h] at hs
    rw [exec_spDecode_of_ok (hcrc ▸ h)] at ht
    cases hs; cases ht
    refine ⟨rfl, rfl, rfl, rfl, fun _ => ⟨rfl, fun hen => ?_⟩⟩
    have hsome : r.1.crc.isSome = true := (spDecode_ok_crc h).trans hen
    obtain ⟨c, hc⟩ := Option.isSome_iff_exists.mp hsome
    rw [finish_crcv, finish_crcv, hc]
    rfl

theorem crcVerify_sameResult {inp : Bytes} {s t s' t' : State} (hs : exec (.crcVerify inp) s = .next s')
    (ht : exec (.crcVerify inp) t = .next t') : sameResult (.crcVerify inp) s' t' := by
  rw [exec_crcVerify] at hs ht
  rcases Nat.lt_or_ge inp.length 2 with h | h
  · rw [execCrcVerify_of_short h] at hs ht
    cases hs; cases ht
    exact ⟨rfl, rfl, rfl, fun htwo => absurd h (not_lt.mpr htwo)⟩
  · rw [execCrcVerify_of_long h] at hs ht
    split_ifs at hs ht <;> cases hs <;> cases ht <;> exact ⟨rfl, rfl, rfl, fun _ => rfl⟩

/-- Settles O57: the check a command makes comes out the same in both states, and so does what it computes. -/
theorem codecResultIsFunctional : Obligations.CodecResultIsFunctional := by
  intro i s t s' t' hi hread hs ht
  cases i with
  | crcCompute inp => cases hs; cases ht; exact ⟨rfl, rfl, rfl, rfl⟩
  | crcVerify inp => exact crcVerify_sameResult hs ht
  | phEncode inp =>
    by_cases h : inp = []
    · subst h
      cases hs; cases ht
      exact sameResult_finish (congrArg phPack hread) trivial
    · rw [exec_phEncode_of_ne_nil h] at hs ht
      cases hs; cases ht; exact ⟨rfl, rfl, rfl, trivial⟩
  | phDecode inp =>
    rcases Nat.lt_or_ge inp.length 6 with h | h
    · rw [exec_phDecode_of_short h] at hs ht
      cases hs; cases ht; exact ⟨rfl, rfl, rfl, rfl, nofun⟩
    · rw [exec_phDecode_of_long h] at hs ht
      cases hs; cases ht; exact ⟨rfl, rfl, rfl, rfl, fun _ => rfl⟩
  | spEncode inp => exact spEncode_sameResult hread hs ht
  | spDecode inp => exact spDecode_sameResult hread hs ht
  | bchEncodeBlock inp =>
    by_cases h : inp.length = 7
    · rw [exec_bchEncodeBlock_of_seven h] at hs ht
      cases hs; cases ht; exact ⟨rfl, rfl, rfl, trivial⟩
    · rw [exec_bchEncodeBlock_of_ne h] at hs ht
      cases hs; cases ht; exact ⟨rfl, rfl, rfl, trivial⟩
  | bchDecodeBlock inp =>
    by_cases h : inp.length = 8
    · rw [exec_bchDecodeBlock_of_eight h] at hs ht
      cases hdec : bchDec inp <;> rw [hdec] at hs ht <;> cases hs <;> cases ht <;> exact ⟨rfl, rfl, rfl, trivial⟩
    · rw [exec_bchDecodeBlock_of_ne h] at hs ht
      cases hs; cases ht; exact ⟨rfl, rfl, rfl, trivial⟩
  | cltuEncode inp =>
    cases hs; cases ht
    exact sameResult_finish (congrArg (cltu inp) hread) trivial
  | randomize inp => cases hs; cases ht; exact ⟨rfl, rfl, rfl, trivial⟩
  | framerPush inp => cases hi
  | framerReset inp => cases hi

end Sys2Proof.Machine
end

section
/-! One step of the machine (20_memory.md R69, R70; 60_exceptions.md R270): the host's four actions, what each leaves, and
what `RD` reads. -/

namespace Sys2Proof.Machine

/-! ### No action stops the core (R270) -/

theorem exec_next (i : Instr) (s : State) : ∃ t, exec i s = .next t := by
  rcases exec_completes_or_fails i s with ⟨t, ht, -⟩ | ⟨e, -, ht⟩
  · exact ⟨t, ht⟩
  · exact ⟨_, ht⟩

theorem writeReg_frame (n : BitVec 8) (v : Word) (s : State) :
    (writeReg n v s).pending = s.pending ∧ (writeReg n v s).params = s.params := by
  rcases writeReg_cases n v s with h | ⟨r, -, -, h⟩ <;> rw [h]
  · exact ⟨rfl, rfl⟩
  · obtain ⟨-, -, -, hparams, -, hpending⟩ := acceptWrite_frame r v s
    exact ⟨hpending, hparams⟩

/-- Every host action is completed, and leaves the later actions and the OPEN parameters. -/
theorem perform_next (a : HostAction) (s : State) :
    ∃ t, perform a s = .next t ∧ t.pending = s.pending ∧ t.params = s.params := by
  cases a with
  | wr n v => exact ⟨_, rfl, writeReg_frame n v s⟩
  | rd n => exact ⟨_, rfl, rfl, rfl⟩
  | cmd c =>
    rw [perform, runCommand]
    cases decode s.params.inMax c with
    | error e => exact ⟨_, rfl, rfl, rfl⟩
    | ok i =>
      obtain ⟨t, ht⟩ := exec_next i s
      obtain ⟨-, -, -, -, -, hparams, hpending, -⟩ := commandsKeepSetup i s t ht
      exact ⟨t, ht, hpending, hparams⟩
  | reset => exact ⟨_, rfl, rfl, rfl⟩

theorem step_of_idle {s : State} (h : s.pending = []) : step s = .next s := by
  rw [step, h]

theorem step_next (s : State) : ∃ t, step s = .next t ∧ t.pending = s.pending.tail ∧ t.params = s.params := by
  cases hp : s.pending with
  | nil => exact ⟨s, step_of_idle hp, hp, rfl⟩
  | cons a rest =>
    rw [step_of_pending hp]
    exact perform_next a { s with pending := rest }

/-- Settles O5: each of the four actions answers a next state and leaves the rest of the list. -/
theorem stepNeverStops : Obligations.StepNeverStops := by
  intro s
  obtain ⟨t, ht, hpending, -⟩ := step_next s
  exact ⟨t, ht, hpending⟩

/-- Settles O58: each of the four actions leaves the OPEN parameters. -/
theorem openParametersFixed : Obligations.OpenParametersFixed := by
  intro s t ht
  obtain ⟨u, hu, -, hparams⟩ := step_next s
  cases ht.symm.trans hu
  exact hparams

/-- Settles O6: with an empty list of pending actions `step` answers the state it was given. -/
theorem idleStepKeepsState : Obligations.IdleStepKeepsState := fun _ h => step_of_idle h

/-- Settles O12: the reset action is `hostReset`, every value of which is R43's. -/
theorem resetActionSetsEverything : Obligations.ResetActionSetsEverything := fun _ _ hp => step_of_pending hp

/-! ### `RD` and the register map (R23, R40) -/

/-- Settles O9: `RD` writes `rdValue` alone, and a reserved number names no register. -/
theorem readReturnsRegister : Obligations.ReadReturnsRegister := fun s n _ hp =>
  ⟨step_of_pending hp, fun h => readReg_of_reserved ((regOfNum_eq_none_iff n).mpr h) s⟩

/-- STATUS is CODE in bits 3 to 0 and CORR in bit 4 (R31). -/
theorem statusWord_toNat (st : Status) : st.word.toNat = st.code.num.toNat + 16 * st.corr.toNat := by
  obtain ⟨code, corr⟩ := st
  cases code <;> cases corr <;> rfl

theorem fmodeWord_toNat (m : FramerMode) : m.word.toNat = if m = .accumulating then 1 else 0 := by
  cases m <;> rfl

theorem fbuflen_toNat {s : State} (hinv : s.Inv) :
    s.fbuflen.toNat = if s.fmode = .accumulating then s.fbuf.length else s.fwin.length := by
  cases hm : s.fmode with
  | accumulating => exact fbuflen_toNat_of_accumulating hinv hm
  | searching => exact fbuflen_toNat_of_searching hinv hm

/-- Settles O10: the value of each register, a narrow one widened with zeros. -/
theorem registerMapReads : Obligations.RegisterMapReads := by
  intro s
  refine ⟨?_, rfl, rfl, rfl, ?_, ?_, ?_, ?_, ?_, ?_, ?_, ?_, ?_, statusWord_toNat s.status, rfl, fmodeWord_toNat s.fmode,
    fbuflen_toNat, rfl⟩ <;> exact BitVec.toNat_setWidth_of_le (by decide)

end Sys2Proof.Machine
end

section
/-! CFG (10_state.md R24, R39) and the pseudo-instructions that write it (30_encoding.md R87). -/

namespace Sys2Proof.Machine

/-! ### The legal values of CFG (R24, R39) -/

theorem syncEn_storeReg_cfg (v : Word) (s : State) : (storeReg .cfg v s).syncEn = v.getLsbD 2 := by
  simp [State.syncEn, storeReg]

theorem syncLen_storeReg_cfg (v : Word) (s : State) : (storeReg .cfg v s).syncLen = (v.extractLsb' 3 4).toNat := by
  have hfield : (v.setWidth 7).extractLsb' 3 4 = v.extractLsb' 3 4 := by
    apply BitVec.eq_of_getLsbD_eq
    intro i hi
    have hin : 3 + i < 7 := by omega
    simp [hi, hin]
  exact congrArg BitVec.toNat hfield

theorem reserved_eq_zero_iff (v : Word) : v.extractLsb' 7 25 = 0 ↔ v.toNat < 2 ^ 7 := by
  have hlt := v.isLt
  have hres : (v.extractLsb' 7 25).toNat = v.toNat / 2 ^ 7 := by
    simp only [BitVec.extractLsb'_toNat, Nat.shiftRight_eq_div_pow]
    omega
  have hzero : (0 : BitVec 25).toNat = 0 := rfl
  rw [← BitVec.toNat_inj, hres, hzero]
  omega

/-- `WR` accepts exactly the values of CFG that leave it legal. -/
theorem writeLegal_cfg_iff (v : Word) (s : State) :
    writeLegal .cfg v = true ↔ v.toNat < 2 ^ 7 ∧ (storeReg .cfg v s).cfgLegal = true := by
  have hzero : v.extractLsb' 3 4 = 0 ↔ ¬1 ≤ (v.extractLsb' 3 4).toNat := by
    rw [← BitVec.toNat_inj, not_le, Nat.lt_one_iff]
    rfl
  rw [cfgLegal_iff, syncEn_storeReg_cfg, syncLen_storeReg_cfg, ← reserved_eq_zero_iff]
  simp only [writeLegal, hzero, Bool.and_eq_true, decide_eq_true_eq, and_assoc, Bool.not_eq_true',
    Bool.and_eq_false_iff, decide_eq_false_iff_not, not_not]
  cases v.getLsbD 2 <;> simp

/-! ### SET_SYNC and CLR_SYNC (R87) -/

theorem run_succ_of_step {M : Host.Core} {k : Nat} {s t : M.State} (h : M.step s = .next t) :
    M.run (k + 1) s = M.run k t := by
  rw [Host.Core.run, h]

theorem step_of_legal_wr {s : State} {r : Reg} {v : Word} {rest : List HostAction} (hlegal : writeLegal r v = true)
    (hp : s.pending = .wr r.num v :: rest) : step s = .next (acceptWrite r v { s with pending := rest }) := by
  rw [step_of_pending_wr hp, writeReg_num_of_legal hlegal]

/-- CFG with its two sync fields replaced (R24, R87). -/
def syncCfg (s : State) (en : Bool) (k : Nat) : BitVec 7 :=
  BitVec.ofNat 4 k ++ BitVec.ofBool en ++ s.cfg.extractLsb' 0 2

theorem cfgWithSync_eq (s : State) (en : Bool) {k : Nat} (hk : k ≤ 8) :
    cfgWithSync s en k = (syncCfg s en k).setWidth 32 := by
  have hdef : cfgWithSync s en k =
      (regValue s .cfg &&& 3#32) ||| (BitVec.ofBool en).setWidth 32 <<< 2 ||| BitVec.ofNat 32 k <<< 3 := rfl
  have hlow : regValue s .cfg &&& 3#32 = (s.cfg.extractLsb' 0 2).setWidth 32 := by
    apply BitVec.eq_of_toNat_eq
    rw [BitVec.toNat_and, regValue, BitVec.toNat_setWidth_of_le (by decide), BitVec.toNat_setWidth_of_le (by decide),
      BitVec.extractLsb'_toNat]
    exact Nat.and_two_pow_sub_one_eq_mod s.cfg.toNat 2
  have hlen : BitVec.ofNat 32 k = (BitVec.ofNat 4 k).setWidth 32 := by
    apply BitVec.eq_of_toNat_eq
    simp
    omega
  calc cfgWithSync s en k
      = ((BitVec.ofNat 4 k).setWidth 32 <<< 1 ||| (BitVec.ofBool en).setWidth 32) <<< 2
          ||| (s.cfg.extractLsb' 0 2).setWidth 32 := by
        rw [hdef, hlow, hlen, BitVec.shiftLeft_or_distrib, ← BitVec.shiftLeft_add, BitVec.or_assoc, BitVec.or_comm]
        exact congrArg (· ||| _) (BitVec.or_comm _ _)
    _ = (syncCfg s en k).setWidth 32 := by simp only [setWidth_shiftLeft_or, syncCfg]

theorem getLsbD_syncCfg (s : State) (en : Bool) (k i : Nat) :
    (syncCfg s en k).getLsbD i =
      if i < 2 then s.cfg.getLsbD i
      else if i = 2 then en else (BitVec.ofNat 4 k).getLsbD (i - 2 - 1) := by
  have happend : (syncCfg s en k).getLsbD i =
      (BitVec.ofNat 4 k ++ BitVec.ofBool en ++ s.cfg.extractLsb' 0 2).getLsbD i := rfl
  rw [happend, BitVec.getLsbD_append, BitVec.getLsbD_append]
  split_ifs with h2 h1 heq heq
  · simp [h2]
  · simp [heq]
  · omega
  · omega
  · rfl

section
variable {s t : State} {en : Bool} {k : Nat} (ht : t.cfg = syncCfg s en k)
include ht

theorem crcEn_of_syncCfg : t.crcEn = s.crcEn := by
  rw [State.crcEn, ht, getLsbD_syncCfg]
  rfl

theorem randEn_of_syncCfg : t.randEn = s.randEn := by
  rw [State.randEn, ht, getLsbD_syncCfg]
  rfl

theorem syncEn_of_syncCfg : t.syncEn = en := by
  rw [State.syncEn, ht, getLsbD_syncCfg]
  rfl

theorem syncLen_of_syncCfg (hk : k ≤ 8) : t.syncLen = k := by
  have hfield : syncLenField t.cfg = BitVec.ofNat 4 k := by
    rw [ht, syncLenField, syncCfg, BitVec.append_assoc]
    exact BitVec.extractLsb'_append_eq_left
  rw [State.syncLen, hfield, BitVec.toNat_ofNat]
  omega

end

theorem cfgWithSync_setWidth (s : State) (en : Bool) {k : Nat} (hk : k ≤ 8) :
    (cfgWithSync s en k).setWidth 7 = syncCfg s en k := by
  rw [cfgWithSync_eq s en hk]
  exact BitVec.setWidth_setWidth_of_le _ (by decide)

theorem writeLegal_cfgWithSync (s : State) {en : Bool} {k : Nat} (hk : k ≤ 8) (hen : en = true → 1 ≤ k) :
    writeLegal .cfg (cfgWithSync s en k) = true := by
  have hcfg : (storeReg .cfg (cfgWithSync s en k) s).cfg = syncCfg s en k := cfgWithSync_setWidth s en hk
  rw [writeLegal_cfg_iff _ s, cfgLegal_iff, syncEn_of_syncCfg hcfg, syncLen_of_syncCfg hcfg hk, cfgWithSync_eq s en hk,
    BitVec.toNat_setWidth_of_le (by decide)]
  exact ⟨(syncCfg s en k).isLt, hk, hen⟩

theorem run_wr {k : Nat} {s : State} {r : Reg} {v : Word} {rest : List HostAction} (hlegal : writeLegal r v = true)
    (hp : s.pending = .wr r.num v :: rest) :
    Host.Core.run Sys2Proof.core (k + 1) s =
      Host.Core.run Sys2Proof.core k (acceptWrite r v { s with pending := rest }) :=
  run_succ_of_step (M := Sys2Proof.core) (step_of_legal_wr hlegal hp)

theorem wordBytes_packWord (b0 b1 b2 b3 : Byte) : wordBytes (packWord b0 b1 b2 b3) = [b0, b1, b2, b3] := by
  have hnat : (packWord b0 b1 b2 b3).toNat = ((b0.toNat * 256 + b1.toNat) * 256 + b2.toNat) * 256 + b3.toNat := by
    simp only [packWord, toNat_append_eq_add, Nat.reducePow]
  have := b0.isLt
  have := b1.isLt
  have := b2.isLt
  have := b3.isLt
  simp only [wordBytes, extractLsb'_eq_ofNat, hnat, List.cons.injEq, and_true, ← BitVec.toNat_inj, BitVec.toNat_ofNat]
  refine ⟨?_, ?_, ?_, ?_⟩ <;> omega

/-- The eight bytes SET_SYNC writes are the marker's, cut to its length. -/
theorem take_marker_bytes {m : Bytes} (h : m.length ≤ 8) :
    ([byteAt m 0, byteAt m 1, byteAt m 2, byteAt m 3] ++ [byteAt m 4, byteAt m 5, byteAt m 6, byteAt m 7]).take m.length
      = m := by
  have hmap : [byteAt m 0, byteAt m 1, byteAt m 2, byteAt m 3] ++ [byteAt m 4, byteAt m 5, byteAt m 6, byteAt m 7]
      = (List.range 8).map (byteAt m) := rfl
  rw [hmap, ← List.map_take, List.take_range, min_eq_left h]
  apply List.ext_getElem
  · simp
  · intro i h1 h2
    simp [byteAt, h2]

/-- Settles O47: the three writes are legal, and the last one leaves the two sync fields of CFG as asked. -/
theorem setSyncConfiguresMarker : Obligations.SetSyncConfiguresMarker := by
  refine ⟨fun s m acts hacts => ?_, fun s => ?_⟩
  · unfold setSync at hacts
    split at hacts
    case isFalse => cases hacts
    case isTrue hlen =>
      obtain ⟨hpos, hmax⟩ := hlen
      cases hacts
      have hlegal := writeLegal_cfgWithSync s (en := true) hmax fun _ => hpos
      have hcfg := cfgWithSync_setWidth s true hmax
      refine ⟨_, (run_wr rfl rfl).trans ((run_wr rfl rfl).trans (run_wr hlegal rfl)), ?_, crcEn_of_syncCfg hcfg,
        randEn_of_syncCfg hcfg, rfl, rfl⟩
      rw [syncMarker_of_syncEn (syncEn_of_syncCfg hcfg), syncLen_of_syncCfg hcfg hmax]
      refine congrArg some (Eq.trans ?_ (take_marker_bytes hmax))
      rw [← wordBytes_packWord, ← wordBytes_packWord]
      rfl
  · have hlegal := writeLegal_cfgWithSync s (en := false) (Nat.zero_le 8) nofun
    have hcfg := cfgWithSync_setWidth s false (Nat.zero_le 8)
    refine ⟨_, run_wr hlegal rfl, ?_, crcEn_of_syncCfg hcfg, randEn_of_syncCfg hcfg, rfl⟩
    exact if_neg (Bool.eq_false_iff.mp (syncEn_of_syncCfg hcfg))

end Sys2Proof.Machine
end

section
/-! The invariant of the machine: it holds at reset, and every host action keeps it. -/

namespace Sys2Proof.Machine

/-! ### The events the framer reports are legal (R93) -/

section
variable {u : Bytes} {crcEn : Bool} (hfull : u.length = 6 + declaredLen u)
include hfull

/-- The packet of a complete unit has the declared length: its data, and 2 bytes of trailer if it has one. -/
theorem legal_packet_of_unit {p : Packet} {used : Nat} (h : spDecode u crcEn = .ok (p, used)) :
    (Event.packet p).legal = true := by
  have hrest : (u.drop 6).length = declaredLen u := by
    rw [List.length_drop]
    omega
  have hlegal {d : Bytes} {c : Option Half} (hd : d.length + (Packet.mk (phUnpack u) d c).trailer = declaredLen u) :
      (Event.packet ⟨phUnpack u, d, c⟩).legal = true := decide_eq_true hd
  rw [spDecode_of_whole hfull.ge] at h
  split at h
  case isFalse =>
    cases h
    refine hlegal ?_
    rw [List.length_take, hrest, min_self]
    rfl
  case isTrue =>
    split_ifs at h with hone
    cases h
    refine hlegal ?_
    have hpos : 1 ≤ declaredLen u := Nat.le_add_left 1 _
    rw [List.length_take, hrest, min_eq_left (Nat.sub_le _ 2)]
    show declaredLen u - 2 + 2 = declaredLen u
    omega

theorem legal_unitError_of_unit {c : Code} (h : spDecode u crcEn = .error c) : (Event.unitError c).legal = true := by
  rcases spDecode_unit_error hfull h with ⟨rfl, -⟩ | ⟨rfl, -⟩ <;> rfl

end

theorem all_legal_append {q : List Event} {e : Event} (hq : q.all Event.legal = true) (he : e.legal = true) :
    (q ++ [e]).all Event.legal = true := by
  simp only [List.all_append, List.all_cons, List.all_nil, hq, he, Bool.and_true]

section
variable {s : State} (hev : s.evq.all Event.legal = true)
include hev

theorem legal_evq_frAccumulate (b : Byte) : (frAccumulate b s).evq.all Event.legal = true := by
  rcases frAccumulate_cases b s with ⟨-, h⟩ | ⟨-, hc, h⟩ | ⟨-, -, h⟩ <;> rw [h]
  · exact all_legal_append hev rfl
  · obtain ⟨-, hfull⟩ := (unitComplete_iff _).mp hc
    rcases frUnit_cases (s.fbuf ++ [b]) s with ⟨p, n, hdec, h⟩ | ⟨e, hdec, h⟩ <;> rw [h]
    · exact all_legal_append hev (legal_packet_of_unit hfull hdec)
    · exact all_legal_append hev (legal_unitError_of_unit hfull hdec)
  · exact hev

theorem legal_evq_frSearch (m : Bytes) (b : Byte) : (frSearch m b s).evq.all Event.legal = true := by
  rcases frSearch_cases m b s with ⟨-, h⟩ | ⟨-, -, h⟩ | ⟨-, -, h⟩ <;> rw [h]
  · show (if s.fskip = 0 then s.evq else s.evq ++ [.skipped s.fskip]).all Event.legal = true
    split
    case isTrue => exact hev
    case isFalse hne => exact all_legal_append hev (bne_iff_ne.mpr hne)
  · exact hev
  · exact hev

theorem legal_evq_frByte (b : Byte) : (frByte s b).evq.all Event.legal = true := by
  rcases frByte_cases s b with ⟨m, -, -, h⟩ | h <;> rw [h]
  · exact legal_evq_frSearch hev m b
  · exact legal_evq_frAccumulate hev b

end

theorem legal_evq_frBytes (inp : Bytes) {s : State} (hev : s.evq.all Event.legal = true) :
    (frBytes inp s).evq.all Event.legal = true := by
  induction inp generalizing s with
  | nil => exact hev
  | cons b l ih => exact ih (legal_evq_frByte hev b)

/-! ### Every command keeps the invariant -/

theorem status_of_completes {i : Instr} {s t : State} (h : Completes s i t) : ∃ k, t.status = .done k := by
  cases h with
  | bchDecodeBlock inp d k => exact ⟨k, rfl⟩
  | _ => exact ⟨false, rfl⟩

/-- The two codes no command ends with are reported in events only, or never (R271, R274). -/
theorem notMem_endCodes (i : Instr) : Code.invalidFrameLength ∉ endCodes i ∧ Code.frameTooLarge ∉ endCodes i := by
  cases i <;> simp [endCodes]

theorem statusLegal_failed {s : State} {e : Code} (hs : s.status = .failed e) (hinv : e ≠ .invalidFrameLength)
    (hlarge : e ≠ .frameTooLarge) : s.statusLegal = true := by
  simp [State.statusLegal, hs, hinv, hlarge]

theorem statusLegal_exec {i : Instr} {s t : State} (ht : exec i s = .next t) : t.statusLegal = true := by
  rcases exec_inversion ht with hdone | ⟨e, he, rfl⟩
  · obtain ⟨k, hk⟩ := status_of_completes hdone
    cases k <;> simp [State.statusLegal, hk]
  · obtain ⟨hinv, hlarge⟩ := notMem_endCodes i
    exact statusLegal_failed rfl (ne_of_mem_of_not_mem he hinv) (ne_of_mem_of_not_mem he hlarge)

theorem legal_evq_exec {i : Instr} {s t : State} (ht : exec i s = .next t) : t.evq.all Event.legal = true := by
  cases i with
  | framerPush inp =>
    cases ht
    exact legal_evq_frBytes inp (s := { s with evq := [] }) rfl
  | _ inp =>
    rw [(resultBuffersRewritten _ s t ht).1 nofun]
    rfl

theorem exec_keeps_inv {i : Instr} {s t : State} (hinv : s.Inv) (ht : exec i s = .next t) : t.Inv := by
  obtain ⟨hcfg, hshlen, -, hframer, -⟩ := hinv
  obtain ⟨hcfg', hframer'⟩ := exec_keeps_framerLegal hcfg hframer ht
  obtain ⟨-, -, -, -, hsh, -⟩ := commandsKeepSetup i s t ht
  have hshlen' : t.shlenLegal = true := by rwa [State.shlenLegal, hsh]
  exact ⟨hcfg', hshlen', statusLegal_exec ht, hframer', legal_evq_exec ht⟩

/-! ### Every write keeps the invariant (R39, R41) -/

section
variable {r : Reg} {v : Word} {s : State} (hlegal : writeLegal r v = true)
include hlegal

theorem cfgLegal_storeReg (hcfg : s.cfgLegal = true) : (storeReg r v s).cfgLegal = true := by
  cases r with
  | cfg => exact ((writeLegal_cfg_iff v s).mp hlegal).2
  | _ => exact hcfg

theorem shlenLegal_storeReg (hsh : s.shlenLegal = true) : (storeReg r v s).shlenLegal = true := by
  cases r with
  | shlen =>
    have hle : v.toNat ≤ 65536 := by simpa only [writeLegal, decide_eq_true_eq] using hlegal
    refine decide_eq_true ?_
    show (v.setWidth 17).toNat ≤ 65536
    rw [BitVec.toNat_setWidth]
    omega
  | _ => exact hsh

theorem acceptWrite_keeps_inv (hinv : s.Inv) : (acceptWrite r v s).Inv := by
  obtain ⟨hcfg, hsh, hstatus, hframer, hev⟩ := hinv
  have hcfg' := cfgLegal_storeReg hlegal hcfg
  have hsh' := shlenLegal_storeReg hlegal hsh
  obtain ⟨hst, -, hevq, -⟩ := acceptWrite_frame r v s
  have hstatus' : (acceptWrite r v s).statusLegal = true := by rwa [State.statusLegal, hst]
  have hev' : (acceptWrite r v s).evq.all Event.legal = true := by rwa [hevq]
  cases hc : r.isConfig with
  | true =>
    rw [acceptWrite_config hc] at hstatus' hev' ⊢
    exact ⟨hcfg', hsh', hstatus', framerLegal_of_empty (s := framerClear _) hcfg' rfl rfl rfl syncEn_of_home, hev'⟩
  | false =>
    have hframer' : (storeReg r v s).framerLegal = true := by
      cases r with
      | cfg | sync0 | sync1 | maxbuf => cases hc
      | _ => exact hframer
    rw [acceptWrite_other hc] at hstatus' hev' ⊢
    exact ⟨hcfg', hsh', hstatus', hframer', hev'⟩

end

theorem writeReg_keeps_inv {s : State} (hinv : s.Inv) (n : BitVec 8) (v : Word) : (writeReg n v s).Inv := by
  rcases writeReg_cases n v s with h | ⟨r, -, hlegal, h⟩ <;> rw [h]
  · obtain ⟨hcfg, hsh, -, hframer, hev⟩ := hinv
    exact ⟨hcfg, hsh, rfl, hframer, hev⟩
  · exact acceptWrite_keeps_inv hlegal hinv

/-! ### The statements on the invariant -/

/-- Settles O49: every part of the invariant is a finite check on the reset values. -/
theorem invariantAtReset : Obligations.InvariantAtReset := by
  unfold Obligations.InvariantAtReset
  decide

theorem perform_keeps_inv {a : HostAction} {s t : State} (hinv : s.Inv) (ht : perform a s = .next t) : t.Inv := by
  cases a with
  | wr n v => cases ht; exact writeReg_keeps_inv hinv n v
  | rd n => cases ht; exact hinv
  | cmd c =>
    rw [perform, runCommand] at ht
    cases hd : decode s.params.inMax c with
    | error e =>
      simp only [hd] at ht
      cases ht
      obtain ⟨hcfg, hsh, -, hframer, -⟩ := hinv
      exact ⟨hcfg, hsh, rfl, hframer, rfl⟩
    | ok i =>
      simp only [hd] at ht
      exact exec_keeps_inv hinv ht
  | reset => cases ht; exact invariantAtReset

/-- Settles O50: each of the four host actions keeps the invariant, and so does an idle step. -/
theorem stepKeepsInvariant : Obligations.StepKeepsInvariant := by
  intro s t hinv ht
  cases hp : s.pending with
  | nil =>
    rw [step_of_idle hp] at ht
    cases ht
    exact hinv
  | cons a rest =>
    rw [step_of_pending hp] at ht
    exact perform_keeps_inv (s := { s with pending := rest }) hinv ht

end Sys2Proof.Machine
end

section
/-! Byte strings and bit vectors as polynomials over GF(2) (00_scope.md R13). The CRC register and the BCH reduction keep
the residue class modulo their generator, so they end in its remainder (40_crc.md R120; 43_bch_cltu.md R190, R191). -/

namespace Sys2Proof.Machine

open Polynomial

/-! ### The polynomial of a bit sequence -/

theorem bitPoly_congr {n : Nat} {f g : Nat → Bool} (h : ∀ i, i < n → f i = g i) : bitPoly n f = bitPoly n g :=
  Finset.sum_congr rfl fun i hi => by rw [h i (Finset.mem_range.mp hi)]

theorem bitPoly_eq_zero {n : Nat} {f : Nat → Bool} (h : ∀ i, i < n → f i = false) : bitPoly n f = 0 :=
  Finset.sum_eq_zero fun i hi => by simp [h i (Finset.mem_range.mp hi)]

theorem bitPoly_add (m n : Nat) (f : Nat → Bool) :
    bitPoly (m + n) f = bitPoly m f + X ^ m * bitPoly n fun i => f (m + i) := by
  simp only [bitPoly, Finset.sum_range_add, Finset.mul_sum, mul_ite, mul_zero, pow_add]

theorem bitPoly_xor (n : Nat) (f g : Nat → Bool) :
    bitPoly n (fun i => f i ^^ g i) = bitPoly n f + bitPoly n g := by
  rw [bitPoly, bitPoly, bitPoly, ← Finset.sum_add_distrib]
  refine Finset.sum_congr rfl fun i _ => ?_
  cases f i <;> cases g i <;> simp [CharTwo.add_self_eq_zero]

theorem degree_bitPoly_lt (n : Nat) (f : Nat → Bool) : (bitPoly n f).degree < n := by
  rw [degree_lt_iff_coeff_zero]
  intro k hk
  rw [bitPoly, finsetSum_coeff]
  refine Finset.sum_eq_zero fun i hi => ?_
  have hne : k ≠ i := by
    have := Finset.mem_range.mp hi
    omega
  cases f i <;> simp [coeff_X_pow, hne]

/-- The polynomial of a bit vector, bit `i` at `x^i`. -/
noncomputable def bvPoly {n : Nat} (v : BitVec n) : (ZMod 2)[X] := bitPoly n v.getLsbD

theorem bvPoly_xor {n : Nat} (v w : BitVec n) : bvPoly (v ^^^ w) = bvPoly v + bvPoly w := by
  rw [bvPoly, bvPoly, bvPoly, ← bitPoly_xor]
  exact bitPoly_congr fun i _ => BitVec.getLsbD_xor

/-- Moving a vector up in a wider one multiplies by a power of `x`. -/
theorem bvPoly_setWidth_shiftLeft {n w j : Nat} (h : j + n ≤ w) (v : BitVec n) :
    bvPoly (v.setWidth w <<< j) = X ^ j * bvPoly v := by
  obtain ⟨r, rfl⟩ : ∃ r, w = j + (n + r) := ⟨w - (j + n), by omega⟩
  have hlow : bitPoly j (v.setWidth (j + (n + r)) <<< j).getLsbD = 0 := bitPoly_eq_zero fun i hi => by simp [hi]
  have hmid : bitPoly n (fun i => (v.setWidth (j + (n + r)) <<< j).getLsbD (j + i)) = bvPoly v :=
    bitPoly_congr fun i hi => by
      have hin : i < n + r := by omega
      simp [hin]
  have hhigh : bitPoly r (fun i => (v.setWidth (j + (n + r)) <<< j).getLsbD (j + (n + i))) = 0 :=
    bitPoly_eq_zero fun i _ => by simp
  rw [bvPoly, bitPoly_add, bitPoly_add, hlow, hmid, hhigh, mul_zero, zero_add, add_zero]

theorem bvPoly_setWidth {n w : Nat} (h : n ≤ w) (v : BitVec n) : bvPoly (v.setWidth w) = bvPoly v := by
  simpa using bvPoly_setWidth_shiftLeft (j := 0) (by omega : 0 + n ≤ w) v

/-- `x` times a polynomial is one shift, and the bit shifted out. -/
theorem X_mul_bvPoly {n : Nat} (v : BitVec (n + 1)) :
    X * bvPoly v = bvPoly (v <<< 1) + if v.msb then X ^ (n + 1) else 0 := by
  have hshift : bvPoly (v <<< 1) = X * bitPoly n v.getLsbD := by
    have hsplit := bitPoly_add 1 n (v <<< 1).getLsbD
    have hzero : bitPoly 1 (v <<< 1).getLsbD = 0 := bitPoly_eq_zero fun i hi => by simp [hi]
    have hrest : bitPoly n (fun i => (v <<< 1).getLsbD (1 + i)) = bitPoly n v.getLsbD := bitPoly_congr fun i hi => by
      have hin : 1 + i < n + 1 := by omega
      rw [BitVec.getLsbD_shiftLeft, decide_eq_true hin, Nat.add_sub_cancel_left]
      simp
    rw [hzero, hrest, zero_add, pow_one, Nat.add_comm 1 n] at hsplit
    exact hsplit
  have htop : bitPoly 1 (fun i => v.getLsbD (n + i)) = if v.msb then 1 else 0 := by
    simp [bitPoly, BitVec.msb_eq_getLsbD_last]
  rw [hshift, bvPoly, bitPoly_add, htop, mul_add, mul_ite, mul_ite, mul_zero, mul_zero, mul_one, pow_succ']

/-! ### Residue classes -/

/-- A polynomial of lower degree in the class of `p` is the remainder of `p`. -/
theorem eq_modByMonic_of_mk_eq {g p r : (ZMod 2)[X]} (hg : g.Monic) (hdeg : r.degree < g.degree)
    (h : AdjoinRoot.mk g r = AdjoinRoot.mk g p) : r = p %ₘ g := by
  rw [← (modByMonic_eq_self_iff hg).mpr hdeg]
  exact modByMonic_eq_of_dvd_sub hg (AdjoinRoot.mk_eq_mk.mp h)

/-! ### The polynomial of a byte string, first byte highest (R13) -/

theorem bytesPoly_cons (b : Byte) (s : Bytes) : bytesPoly (b :: s) = bytesPoly s + X ^ (8 * s.length) * bvPoly b := by
  rw [bytesPoly, List.length_cons, Nat.mul_succ, bitPoly_add]
  have hrest : bitPoly (8 * s.length) (fun i => (byteAt (b :: s) (s.length + 1 - 1 - i / 8)).getLsbD (i % 8))
      = bytesPoly s := bitPoly_congr fun i hi => by
    have hpos : s.length + 1 - 1 - i / 8 = s.length - 1 - i / 8 + 1 := by omega
    rw [hpos]
    rfl
  have hfirst : bitPoly 8 (fun i => (byteAt (b :: s) (s.length + 1 - 1 - (8 * s.length + i) / 8)).getLsbD
      ((8 * s.length + i) % 8)) = bvPoly b := bitPoly_congr fun i hi => by
    have hpos : s.length + 1 - 1 - (8 * s.length + i) / 8 = 0 := by omega
    have hbit : (8 * s.length + i) % 8 = i := by omega
    rw [hpos, hbit]
    rfl
  rw [hrest, hfirst]

/-! ### The CRC register in its residue class (40_crc.md R120) -/

theorem crcGenerator_monic : crcGenerator.Monic := by
  unfold crcGenerator
  monicity!

theorem crcGenerator_degree : crcGenerator.degree = 16 := by
  unfold crcGenerator
  compute_degree!

/-- The constant added after a shift is the generator without its leading term. -/
theorem crcGenerator_eq : crcGenerator = bvPoly 0x1021#16 + X ^ 16 := by
  have hpoly : bvPoly 0x1021#16 = 1 + X ^ 5 + X ^ 12 := by simp [bvPoly, bitPoly, Finset.sum_range_succ]
  rw [hpoly, crcGenerator]
  ring

theorem mk_crcShift (c : Half) :
    AdjoinRoot.mk crcGenerator (bvPoly (crcShift consts.crc c)) = AdjoinRoot.mk crcGenerator (X * bvPoly c) := by
  rw [X_mul_bvPoly, crcShift]
  split
  · rw [bvPoly_xor, map_add, map_add, consts_crc_poly]
    have hgen : AdjoinRoot.mk crcGenerator (bvPoly 0x1021#16) = AdjoinRoot.mk crcGenerator (X ^ (15 + 1)) := by
      rw [AdjoinRoot.mk_eq_mk, CharTwo.sub_eq_add, ← crcGenerator_eq]
    rw [hgen]
  · rw [add_zero]

theorem mk_crcShifts (n : Nat) (c : Half) :
    AdjoinRoot.mk crcGenerator (bvPoly (Nat.repeat (crcShift consts.crc) n c)) =
      AdjoinRoot.mk crcGenerator (X ^ n * bvPoly c) := by
  induction n with
  | zero => rw [pow_zero, one_mul]; rfl
  | succ n ih => rw [Nat.repeat, mk_crcShift, map_mul, ih, ← map_mul, ← mul_assoc, pow_succ']

theorem mk_crcByte (c : Half) (b : Byte) :
    AdjoinRoot.mk crcGenerator (bvPoly (crcByte consts.crc c b)) =
      AdjoinRoot.mk crcGenerator (X ^ 8 * bvPoly c + X ^ 16 * bvPoly b) := by
  rw [crcByte_eq, mk_crcShifts, bvPoly_xor, bvPoly_setWidth_shiftLeft (by decide)]
  refine congrArg (AdjoinRoot.mk crcGenerator) ?_
  ring

theorem mk_crcFold (s : Bytes) (c : Half) :
    AdjoinRoot.mk crcGenerator (bvPoly (s.foldl (crcByte consts.crc) c)) =
      AdjoinRoot.mk crcGenerator (X ^ (8 * s.length) * bvPoly c + bytesPoly s * X ^ 16) := by
  induction s generalizing c with
  | nil =>
    have hnil : bytesPoly [] = 0 := bitPoly_eq_zero fun i hi => absurd hi (Nat.not_lt_zero i)
    simp [hnil]
  | cons b s ih =>
    rw [List.foldl_cons, ih, map_add, map_mul, mk_crcByte, ← map_mul, ← map_add, bytesPoly_cons, List.length_cons]
    refine congrArg (AdjoinRoot.mk crcGenerator) ?_
    ring

theorem bvPoly_crcInit : bvPoly (0xFFFF : Half) = bitPoly 16 fun _ => true :=
  bitPoly_congr (by decide)

/-- Settles O17: the register is in the class of the polynomial divided, and its degree is below the generator's. -/
theorem crcIsPolynomialRemainder : Obligations.CrcIsPolynomialRemainder := by
  intro s
  refine eq_modByMonic_of_mk_eq crcGenerator_monic ?_ ?_
  · rw [crcGenerator_degree]
    exact degree_bitPoly_lt 16 _
  · have hfold := mk_crcFold s 0xFFFF
    rw [← crc16_eq, bvPoly_crcInit] at hfold
    exact hfold

/-! ### The BCH reduction in its residue class (43_bch_cltu.md R191) -/

theorem bchGenerator_monic : bchGenerator.Monic := by
  unfold bchGenerator
  monicity!

theorem bchGenerator_degree : bchGenerator.degree = 7 := by
  unfold bchGenerator
  compute_degree!

theorem bvPoly_bchGen : bvPoly 0xC5#8 = bchGenerator := by
  have hpoly : bvPoly 0xC5#8 = 1 + X ^ 2 + X ^ 6 + X ^ 7 := by simp [bvPoly, bitPoly, Finset.sum_range_succ]
  rw [hpoly, bchGenerator]
  ring

theorem mk_bchReduce {j : Nat} (hj : j ≤ 56) (v : BitVec 63) :
    AdjoinRoot.mk bchGenerator (bvPoly (bchReduce j v)) = AdjoinRoot.mk bchGenerator (bvPoly v) := by
  induction j generalizing v with
  | zero => rfl
  | succ j ih =>
    have hterm : AdjoinRoot.mk bchGenerator (bvPoly (consts.bch.gen.setWidth 63 <<< j)) = 0 := by
      rw [bvPoly_setWidth_shiftLeft (by omega), consts_bch_gen, bvPoly_bchGen, map_mul, AdjoinRoot.mk_self, mul_zero]
    rw [bchReduce, ih (by omega)]
    split
    · rw [bvPoly_xor, map_add, hterm, add_zero]
    · rfl

/-- The term a step adds has degree `j + 7`. -/
theorem getLsbD_genTerm {j k : Nat} (hj : j + 7 < 63) (hk : j + 7 ≤ k) :
    (consts.bch.gen.setWidth 63 <<< j).getLsbD k = decide (k = j + 7) := by
  by_cases htop : k = j + 7
  · subst htop
    simp [hj]
  · have hhigh : consts.bch.gen.getLsbD (k - j) = false := BitVec.getLsbD_of_ge _ _ (by omega)
    rw [BitVec.getLsbD_shiftLeft, BitVec.getLsbD_setWidth, hhigh, Bool.and_false, Bool.and_false, decide_eq_false htop]

/-- The reduction clears the coefficients of degree 7 and more, from the top. -/
theorem getLsbD_bchReduce {j : Nat} {v : BitVec 63} (hv : ∀ i, j + 7 ≤ i → v.getLsbD i = false) {i : Nat} (hi : 7 ≤ i) :
    (bchReduce j v).getLsbD i = false := by
  induction j generalizing v with
  | zero => exact hv i (by omega)
  | succ j ih =>
    rw [bchReduce]
    refine ih fun k hk => ?_
    split
    case isTrue hset =>
      rw [BitVec.getLsbD_xor, getLsbD_genTerm (BitVec.lt_of_getLsbD hset) hk]
      by_cases htop : k = j + 7
      · rw [htop, hset, decide_eq_true rfl]
        rfl
      · rw [hv k (by omega), decide_eq_false htop]
        rfl
    case isFalse hclear =>
      by_cases htop : k = j + 7
      · rwa [htop, ← Bool.not_eq_true]
      · exact hv k (by omega)

theorem bvPoly_bchRem (v : BitVec 63) : bvPoly (bchRem v) = bvPoly v %ₘ bchGenerator := by
  have hlow : (bchRem v).setWidth 63 = bchReduce 56 v := by
    apply BitVec.eq_of_getLsbD_eq
    intro i hi
    by_cases h7 : i < 7
    · simp [bchRem, hi, h7]
    · have hge : 7 ≤ i := not_lt.mp h7
      rw [getLsbD_bchReduce (fun k hk => BitVec.getLsbD_of_ge v k hk) hge, BitVec.getLsbD_setWidth,
        BitVec.getLsbD_of_ge _ _ hge, Bool.and_false]
  refine eq_modByMonic_of_mk_eq bchGenerator_monic ?_ ?_
  · rw [bchGenerator_degree]
    exact degree_bitPoly_lt 7 _
  · rw [← mk_bchReduce le_rfl v, ← hlow, bvPoly_setWidth (by decide)]

theorem bvPoly_be56 {d : Bytes} (hd : d.length = 7) : bvPoly (be56 d) = bytesPoly d := by
  rw [bytesPoly, hd]
  refine bitPoly_congr fun i hi => ?_
  have hbit := testBit_beNat d (w := 55 - i) (by omega)
  have hdeg : 8 * d.length - 1 - (55 - i) = i := by omega
  have hbyte : (55 - i) / 8 = 7 - 1 - i / 8 := by omega
  have hin : 7 - (55 - i) % 8 = i % 8 := by omega
  rw [hdeg, wireBit, hbyte, hin] at hbit
  rw [be56, BitVec.getLsbD_ofNat, decide_eq_true hi, Bool.true_and, hbit]

theorem bchGenerator_factors : bchGenerator = (X + 1) * (X ^ 6 + X + 1) := by
  have hexpand : (X + 1 : (ZMod 2)[X]) * (X ^ 6 + X + 1) = (X ^ 7 + X ^ 6 + X ^ 2 + 1) + (X + X) := by ring
  rw [hexpand, CharTwo.add_self_eq_zero, add_zero, bchGenerator]

theorem getLsbD_parityByte (q : BitVec 7) (i : Nat) :
    (parityByte q).getLsbD i = if i < 1 then false else q.getLsbD (i - 1) := by
  have happend : (parityByte q).getLsbD i = (q ++ BitVec.ofBool false).getLsbD i := rfl
  rw [happend, BitVec.getLsbD_append]
  split_ifs with h
  · simp
  · rfl

/-- Settles O28: the parity is the complemented remainder, and the eighth byte carries it above the fill bit. -/
theorem bchParityIsRemainder : Obligations.BchParityIsRemainder := by
  refine ⟨bchGenerator_factors, fun d hd => ⟨parityByte (bchParity (be56 d)), rfl, getLsbD_parityByte _ 0, ?_⟩⟩
  have hparity : bitPoly 7 (fun i => !(parityByte (bchParity (be56 d))).getLsbD (i + 1))
      = bvPoly (bchRem ((be56 d).setWidth 63 <<< 7)) := bitPoly_congr fun i hi => by
    have hmask : parityMask.getLsbD i = true := by
      have hones : parityMask = BitVec.allOnes 7 := rfl
      rw [hones, BitVec.getLsbD_allOnes, decide_eq_true hi]
    rw [getLsbD_parityByte, if_neg (by omega), Nat.add_sub_cancel, bchParity, BitVec.getLsbD_xor, hmask, Bool.xor_true,
      Bool.not_not]
  rw [hparity, bvPoly_bchRem, bvPoly_setWidth_shiftLeft (by decide), bvPoly_be56 hd, mul_comm]

end Sys2Proof.Machine
end

section
/-! What the CRC trailer of a packet detects (42_space_packet.md R166): no step of the CRC register forgets a difference, so a
flipped bit changes the CRC. -/

namespace Sys2Proof.Machine

/-! ### Every step of the CRC register is injective (R120) -/

theorem crcShift_eq_zero {c : Half} (h : crcShift consts.crc c = 0) : c = 0 := by
  unfold crcShift at h
  split at h
  case isTrue =>
    have hlow := congrArg (fun v => v.getLsbD 0) h
    simp at hlow
  case isFalse hmsb =>
    have hnat := congrArg BitVec.toNat h
    have hlt : c.toNat < 2 ^ 15 := by
      rw [BitVec.msb_eq_decide] at hmsb
      simpa using hmsb
    apply BitVec.eq_of_toNat_eq
    simp only [BitVec.toNat_shiftLeft, Nat.shiftLeft_eq, BitVec.ofNat_eq_ofNat, BitVec.toNat_ofNat] at hnat ⊢
    omega

theorem crcShift_injective : Function.Injective (crcShift consts.crc) := by
  intro a b h
  have hsum : crcShift consts.crc (a ^^^ b) = 0 := by
    rw [crcShift_add, h]
    exact BitVec.xor_self
  exact BitVec.xor_eq_zero_iff.mp (crcShift_eq_zero hsum)

theorem crcShifts_injective (n : Nat) : Function.Injective (Nat.repeat (crcShift consts.crc) n) := by
  induction n with
  | zero => exact Function.injective_id
  | succ n ih => exact crcShift_injective.comp ih

theorem crcByte_left_injective (b : Byte) : Function.Injective fun c => crcByte consts.crc c b := by
  intro c c' h
  exact (BitVec.xor_left_inj _).mp (crcShifts_injective 8 h)

theorem crcByte_right_injective (c : Half) : Function.Injective (crcByte consts.crc c) := by
  intro b b' h
  have hshift : b.setWidth 16 <<< 8 = b'.setWidth 16 <<< 8 := (BitVec.xor_right_inj _).mp (crcShifts_injective 8 h)
  have hnat := congrArg BitVec.toNat hshift
  simp only [BitVec.toNat_shiftLeft, Nat.shiftLeft_eq, BitVec.toNat_setWidth] at hnat
  have := b.isLt
  have := b'.isLt
  exact BitVec.eq_of_toNat_eq (by omega)

/-- Bytes after a difference keep it. -/
theorem crcFold_injective (s : Bytes) : Function.Injective fun c => s.foldl (crcByte consts.crc) c := by
  induction s with
  | nil => exact Function.injective_id
  | cons b s ih => exact ih.comp (crcByte_left_injective b)

/-! ### A flipped bit changes the CRC -/

theorem flipBit_cons_of_lt {w : Nat} (hw : w < 8) (b : Byte) (s : Bytes) :
    flipBit w (b :: s) = (b ^^^ 0x80#8 >>> w) :: s := by
  rw [flipBit, Nat.div_eq_of_lt hw, Nat.mod_eq_of_lt hw, List.modify_zero_cons]

theorem flipBit_cons_add (w : Nat) (b : Byte) (s : Bytes) : flipBit (8 + w) (b :: s) = b :: flipBit w s := by
  have hbyte : (8 + w) / 8 = w / 8 + 1 := by omega
  rw [flipBit, hbyte, Nat.add_mod_left, List.modify_succ_cons, flipBit]

theorem flipMask_ne_zero {w : Nat} (hw : w < 8) : 0x80#8 >>> w ≠ 0#8 := by
  intro h
  have hbit := getLsbD_flipMask ⟨w, hw⟩ ⟨w, hw⟩
  rw [h] at hbit
  simp at hbit

theorem crcFold_flipBit_ne {w : Nat} {s : Bytes} (hw : w < 8 * s.length) (c : Half) :
    (flipBit w s).foldl (crcByte consts.crc) c ≠ s.foldl (crcByte consts.crc) c := by
  induction s generalizing w c with
  | nil => exact absurd hw (Nat.not_lt_zero w)
  | cons b s ih =>
    by_cases h8 : w < 8
    · rw [flipBit_cons_of_lt h8]
      intro h
      have hbyte := crcByte_right_injective c (crcFold_injective s h)
      exact flipMask_ne_zero h8 (by simpa using hbyte)
    · obtain ⟨v, rfl⟩ : ∃ v, w = 8 + v := Nat.exists_eq_add_of_le (not_lt.mp h8)
      rw [flipBit_cons_add]
      exact ih (by rw [List.length_cons] at hw; omega) _

theorem crc16_flipBit_ne {w : Nat} {s : Bytes} (hw : w < 8 * s.length) : crc16 (flipBit w s) ≠ crc16 s := by
  rw [crc16_eq, crc16_eq]
  exact crcFold_flipBit_ne hw _

/-! ### The decoder on a packet with a flipped bit -/

/-- A string whose last two bytes are the CRC of the others has CRC 0 (R121). -/
theorem crc16_eq_zero_of_trailer {b : Bytes} {n : Nat} (hlen : b.length = n + 2) (h : crc16 (b.take n) = be16 b n) :
    crc16 b = 0 := by
  have htake : (b.take n).length = n := List.length_take_of_le (by omega)
  obtain ⟨hi, lo, hlast⟩ : ∃ hi lo, b.drop n = [hi, lo] := List.length_eq_two.mp (by rw [List.length_drop]; omega)
  have hsplit : b.take n ++ [hi, lo] = b := by rw [← hlast, List.take_append_drop]
  have htrailer : be16 b n = hi ++ lo := by
    calc be16 b n = be16 (b.take n ++ [hi, lo]) (b.take n).length := by rw [hsplit, htake]
      _ = hi ++ lo := be16_append_right (b.take n) [hi, lo] 0
  calc crc16 b = crc16 (b.take n ++ bytes16 (crc16 (b.take n))) := by rw [h, htrailer, bytes16_append, hsplit]
    _ = 0 := crcZeroResidue.1 _

theorem crc16_spPacket (h : Header) (data : Bytes) : crc16 (spPacket true h data) = 0 :=
  crcZeroResidue.1 (phPack h ++ data)

theorem declaredLen_flipBit {w : Nat} {b : Bytes} (hw : w < 8 * b.length) (h4 : w / 8 ≠ 4) (h5 : w / 8 ≠ 5) :
    declaredLen (flipBit w b) = declaredLen b := by
  rw [declaredLen, be16, byteAt_flipBit hw, byteAt_flipBit hw, if_neg h4.symm, if_neg h5.symm]
  rfl

theorem spDecode_flipBit_spPacket {h : Header} {data : Bytes} (hfits : lengthFits true h data) {w : Nat}
    (hw : w < 8 * (spPacket true h data).length) (h4 : w / 8 ≠ 4) (h5 : w / 8 ≠ 5) :
    spDecode (flipBit w (spPacket true h data)) true = .error .checksumMismatch := by
  have hdecl : declaredLen (spPacket true h data) = data.length + 2 := by
    simpa [trailerLen] using declaredLen_spPacket_append hfits []
  have hdecl' : declaredLen (flipBit w (spPacket true h data)) = data.length + 2 :=
    (declaredLen_flipBit hw h4 h5).trans hdecl
  have hlen : (flipBit w (spPacket true h data)).length = 4 + (data.length + 2) + 2 := by
    rw [flipBit_length, spPacket_length]
    show 6 + (data.length + 2) = _
    omega
  refine spDecode_crc_of_mismatch (by omega) (by omega) fun hmatch => crc16_flipBit_ne hw ?_
  rw [crc16_spPacket]
  exact crc16_eq_zero_of_trailer (n := 4 + (data.length + 2)) hlen (hdecl' ▸ hmatch)

/-- Settles O26: with the length field untouched the decoder compares all bytes before the trailer with it, and the CRC of
the whole is no longer 0. -/
theorem crcCatchesSingleBitErrors : Obligations.CrcCatchesSingleBitErrors := by
  intro inp s t u w ht hok hs hu hw h4 h5
  obtain ⟨rfl, hpos, hmax⟩ := spEncode_success ht hok
  have hfits : lengthFits true (encodedHeader inp s) inp := by
    rw [lengthFits, encodedHeader_pdl_toNat hmax, Nat.sub_add_cancel hpos, trailingSize, hs]
  rw [spEncoded_out, hs] at hw ⊢
  exact exec_spDecode_of_error (hu ▸ spDecode_flipBit_spPacket hfits hw h4 h5)

end Sys2Proof.Machine
end

section
/-! The period of the pseudo-random sequence (43_bch_cltu.md R204, R205): the shift register returns to its seed after 255
steps and after no fewer. -/

namespace Sys2Proof.Machine

/-! ### The register after a number of steps -/

theorem stagesAt_iterate (n : Nat) : StagesAt n (lfsrStep^[n] consts.prn.seed) := by
  induction n with
  | zero => exact stagesAt_seed
  | succ n ih =>
    rw [Function.iterate_succ_apply']
    exact stagesAt_lfsrStep ih

theorem prnBit_eq_iterate (n : Nat) : prnBit n = (lfsrStep^[n] consts.prn.seed).getLsbD 0 :=
  (stagesAt_iterate n 0 (by decide)).symm

theorem lfsrBits_snd (n : Nat) (acc st : Byte) : (lfsrBits n acc st).2 = lfsrStep^[n] st := by
  induction n generalizing acc st with
  | zero => rfl
  | succ n ih => rw [lfsrBits, ih, Function.iterate_succ_apply]

theorem prnFrom_add (m n : Nat) (st : Byte) : prnFrom (m + n) st = prnFrom m st ++ prnFrom n (lfsrStep^[8 * m] st) := by
  induction m generalizing st with
  | zero => rw [Nat.zero_add]; rfl
  | succ m ih =>
    rw [Nat.succ_add, prnFrom, ih, prnFrom, List.cons_append, lfsrBits_snd, ← Function.iterate_add_apply, Nat.mul_succ]

/-! ### Its period -/

theorem seed_isPeriodicPt : Function.IsPeriodicPt lfsrStep 255 consts.prn.seed := by
  show lfsrStep^[255] consts.prn.seed = consts.prn.seed
  decide +kernel

/-- The divisors of 255 that could be a smaller period. -/
theorem iterate_seed_ne_of_dvd : ∀ d : Fin 255, d.val ∣ 255 → lfsrStep^[d.val] consts.prn.seed ≠ consts.prn.seed := by
  decide +kernel

/-- A smaller period would have a common divisor with 255 that is one too. -/
theorem not_isPeriodicPt_seed {p : Nat} (hpos : 0 < p) (hlt : p < 255) :
    ¬Function.IsPeriodicPt lfsrStep p consts.prn.seed := by
  intro hp
  have hgcd : p.gcd 255 < 255 := lt_of_le_of_lt (Nat.gcd_le_left 255 hpos) hlt
  exact iterate_seed_ne_of_dvd ⟨p.gcd 255, hgcd⟩ (Nat.gcd_dvd_right p 255) (hp.gcd seed_isPeriodicPt)

/-- A period of the bits is a period of the register, whose stages are the next eight bits. -/
theorem isPeriodicPt_of_prnBit {p : Nat} (h : ∀ n, prnBit (n + p) = prnBit n) :
    Function.IsPeriodicPt lfsrStep p consts.prn.seed := by
  apply BitVec.eq_of_getLsbD_eq
  intro j hj
  rw [stagesAt_iterate p j hj, stagesAt_seed j hj, Nat.add_comm, h, Nat.zero_add]

/-- Settles O37: the register's period is 255, and 255 bytes are 8 times 255 steps. -/
theorem prnPeriod : Obligations.PrnPeriod := by
  refine ⟨fun n => ?_, fun p hpos hlt => ?_, fun n => ?_⟩
  · rw [prnBit_eq_iterate, Function.iterate_add_apply, seed_isPeriodicPt, ← prnBit_eq_iterate]
  · by_contra hno
    push Not at hno
    exact not_isPeriodicPt_seed hpos hlt (isPeriodicPt_of_prnBit hno)
  · have hbytes : lfsrStep^[8 * 255] consts.prn.seed = consts.prn.seed := seed_isPeriodicPt.const_mul 8
    rw [prn, prnFrom_add, hbytes]
    rfl

end Sys2Proof.Machine
end

section
/-! Streams through the framer (44_stream_framer.md R236, R239, R243): a whole packet, an oversized unit, and the bytes
skipped before a marker. -/

namespace Sys2Proof.Machine

/-! ### The front of a unit (R235) -/

/-- The bytes begin a unit that needs more of them: the header is not whole, or the declared length is not reached. -/
def PartialUnit (u : Bytes) : Prop := u.length < 6 ∨ u.length < 6 + declaredLen u

/-- The declared length is known after six bytes. -/
theorem declaredLen_append {u : Bytes} (h : 6 ≤ u.length) (v : Bytes) : declaredLen (u ++ v) = declaredLen u := by
  rw [declaredLen, be16_append_left u v 4 h, declaredLen]

theorem partialUnit_of_le {u v : Bytes} (h : 6 ≤ u.length → u.length < 6 + declaredLen (u ++ v)) : PartialUnit u := by
  rcases Nat.lt_or_ge u.length 6 with hlen | hlen
  · exact .inl hlen
  · exact .inr (declaredLen_append hlen v ▸ h hlen)

theorem PartialUnit.of_append {u v : Bytes} (h : PartialUnit (u ++ v)) : PartialUnit u := by
  refine partialUnit_of_le (v := v) fun hlen => ?_
  rw [PartialUnit, List.length_append] at h
  omega

theorem PartialUnit.unitComplete_eq_false {u : Bytes} (h : PartialUnit u) : unitComplete u = false := by
  rw [← Bool.not_eq_true, unitComplete_iff]
  rintro ⟨hlen, hfull⟩
  rcases h with h | h <;> omega

section
variable {s : State} (hmode : s.fmode = .accumulating) (hbuf : s.fbuf = [])
include hmode hbuf

/-- The front of a unit that fits MAXBUF is kept whole. -/
theorem frBytes_of_partialUnit {u : Bytes} (hpart : PartialUnit u) (hfit : u.length ≤ s.maxbuf.toNat) :
    frBytes u s = { s with fbuf := u } := by
  induction u using List.reverseRecOn with
  | nil => rw [frBytes_nil, ← hbuf]
  | append_singleton u b ih =>
    have hfit' : u.length ≤ s.maxbuf.toNat := by
      rw [List.length_append] at hfit
      omega
    rw [frBytes_append, ih hpart.of_append hfit']
    exact frByte_of_incomplete (s := { s with fbuf := u }) hmode hfit hpart.unitComplete_eq_false

/-- One byte more than MAXBUF of a unit that is longer: `FrameTooLarge`, and nothing is kept (R239). -/
theorem frBytes_of_oversized {u : Bytes} (hlen : u.length = s.maxbuf.toNat + 1)
    (hlong : 6 ≤ u.length → s.maxbuf.toNat < 6 + declaredLen u) :
    frBytes u s = { s with evq := s.evq ++ [.unitError .frameTooLarge], fbuf := [], fmode := s.home } := by
  obtain rfl | ⟨v, b, rfl⟩ := List.eq_nil_or_concat' u
  · cases hlen
  · have hv : v.length = s.maxbuf.toNat := by simpa using hlen
    have hpart : PartialUnit v := by
      refine partialUnit_of_le (v := [b]) fun h6 => ?_
      rw [hv]
      exact hlong (by omega)
    rw [frBytes_append, frBytes_of_partialUnit hmode hbuf hpart hv.le]
    exact frByte_of_overflow (s := { s with fbuf := v }) hmode (Nat.lt_of_succ_le hlen.ge)

end

/-! ### The framer between units -/

/-- The state with the events `q` more, and the framer in mode `mode` with nothing held and nothing skipped. -/
def settled (q : List Event) (mode : FramerMode) (s : State) : State :=
  { s with evq := s.evq ++ q, fskip := 0, fwin := [], fbuf := [], fmode := mode }

theorem settled_settled (q r : List Event) (mode mode' : FramerMode) (s : State) :
    settled r mode' (settled q mode s) = settled (q ++ r) mode' s := by
  simp only [settled, List.append_assoc]

/-! ### A whole packet (R237) -/

/-- A byte string that is one valid packet is a complete unit. -/
theorem length_of_validPacket {crcEn : Bool} {p : Bytes} {k : Packet} (h : validPacket crcEn p k) :
    p.length = 6 + declaredLen p := by
  rcases Nat.lt_or_ge p.length 6 with hlen | hlen
  · rw [validPacket, spDecode_of_short hlen] at h
    cases h
  rcases Nat.lt_or_ge p.length (6 + declaredLen p) with hcut | hwhole
  · rw [validPacket, spDecode_of_cut hlen hcut] at h
    cases h
  · rw [validPacket, spDecode_of_whole hwhole] at h
    split_ifs at h
    · exact (congrArg Prod.snd (Except.ok.inj h)).symm
    · exact (congrArg Prod.snd (Except.ok.inj h)).symm

/-- What R243 asks of each packet in a stream. -/
abbrev fittingPacket (s : State) (p : Bytes) (k : Packet) : Prop :=
  validPacket s.crcEn p k ∧ p.length ≤ s.maxbuf.toNat

theorem frBytes_of_packet {q : List Event} {s : State} {p : Bytes} {k : Packet} (hp : fittingPacket s p k) :
    frBytes p (settled q .accumulating s) = settled (q ++ [.packet k]) s.afterUnit s := by
  obtain ⟨hvalid, hfit⟩ := hp
  have hfull := length_of_validPacket hvalid
  obtain rfl | ⟨v, b, rfl⟩ := List.eq_nil_or_concat' p
  · cases hfull
  · have hlen : (v ++ [b]).length = v.length + 1 := List.length_append
    have hpart : PartialUnit v := partialUnit_of_le (v := [b]) fun _ => by omega
    have hfit' : v.length ≤ s.maxbuf.toNat := by omega
    have hcomplete : unitComplete (v ++ [b]) = true := (unitComplete_iff _).mpr ⟨by omega, hfull⟩
    rw [frBytes_append, frBytes_of_partialUnit (s := settled q .accumulating s) rfl rfl hpart hfit',
      ← settled_settled q _ .accumulating]
    exact frByte_of_packet (s := { settled q .accumulating s with fbuf := v }) rfl hfit hcomplete hvalid

/-! ### The bytes before the marker (R234, R37) -/

/-- The framer searches for marker `m` and holds nothing. -/
structure SearchingFor (m : Bytes) (s : State) : Prop where
  sync : s.syncMarker = some m
  mode : s.fmode = .searching
  win : s.fwin = []
  skip : s.fskip = 0

/-- The searching framer with window `w` after `n` skipped bytes, whose count saturates. -/
def scanned (w : Bytes) (n : Nat) (s : State) : State :=
  { s with fwin := w, fskip := BitVec.ofNat 32 (min n (2 ^ 32 - 1)) }

theorem SearchingFor.eq_scanned {m : Bytes} {s : State} (hs : SearchingFor m s) : s = scanned [] 0 s := by
  have hskip : BitVec.ofNat 32 (min 0 (2 ^ 32 - 1)) = s.fskip := by simp [hs.skip]
  rw [scanned, hskip, ← hs.win]

theorem satIncr_ofNat_min (n : Nat) :
    satIncr (BitVec.ofNat 32 (min n (2 ^ 32 - 1))) = BitVec.ofNat 32 (min (n + 1) (2 ^ 32 - 1)) := by
  have hnat : (BitVec.ofNat 32 (min n (2 ^ 32 - 1))).toNat = min n (2 ^ 32 - 1) := Nat.mod_eq_of_lt (by omega)
  have hmin : min (min n (2 ^ 32 - 1) + 1) (2 ^ 32 - 1) = min (n + 1) (2 ^ 32 - 1) := by omega
  rw [satIncr_eq_min, hnat, hmin]

theorem skipped_events (n : Nat) (q : List Event) :
    (if BitVec.ofNat 32 (min n (2 ^ 32 - 1)) = 0 then q
      else q ++ [.skipped (BitVec.ofNat 32 (min n (2 ^ 32 - 1)))]) = q ++ skipEvents n := by
  have hnat : (BitVec.ofNat 32 (min n (2 ^ 32 - 1))).toNat = min n (2 ^ 32 - 1) := Nat.mod_eq_of_lt (by omega)
  have hzero : BitVec.ofNat 32 (min n (2 ^ 32 - 1)) = 0 ↔ n = 0 := by
    rw [← BitVec.toNat_inj, hnat]
    show min n (2 ^ 32 - 1) = 0 ↔ n = 0
    omega
  rw [skipEvents]
  by_cases h : n = 0
  · rw [if_pos (hzero.mpr h), if_pos h, List.append_nil]
  · rw [if_neg (mt hzero.mp h), if_neg h]

section
variable {s : State} {m w : Bytes} {b : Byte} (n : Nat) (hs : SearchingFor m s)
include hs

theorem frByte_scanned_of_part (hpart : (w ++ [b]).length < m.length) :
    frByte (scanned w n s) b = scanned (w ++ [b]) n s :=
  frByte_of_part_window (s := scanned w n s) hs.mode hs.sync (fun h => hpart.ne (congrArg List.length h)) hpart.ne

theorem frByte_scanned_of_full (hfull : (w ++ [b]).length = m.length) (hne : w ++ [b] ≠ m) :
    frByte (scanned w n s) b = scanned ((w ++ [b]).drop 1) (n + 1) s := by
  have hskip : satIncr (scanned w n s).fskip = BitVec.ofNat 32 (min (n + 1) (2 ^ 32 - 1)) := satIncr_ofNat_min n
  rw [frByte_of_full_window (s := scanned w n s) hs.mode hs.sync hne hfull, hskip]
  rfl

theorem frByte_scanned_of_marker (hw : w ++ [b] = m) :
    frByte (scanned w n s) b = settled (skipEvents n) .accumulating s := by
  rw [frByte_of_marker (s := scanned w n s) hs.mode hs.sync hw, settled, ← skipped_events]
  rfl

end

/-- A window inside the front of a string does not see what follows. -/
theorem window_append {v x : Bytes} {i n : Nat} (h : i + n ≤ v.length) :
    ((v ++ x).drop i).take n = (v.drop i).take n := by
  have hdrop : n ≤ (v.drop i).length := by
    rw [List.length_drop]
    omega
  rw [List.drop_append_of_le_length (by omega), List.take_append_of_le_length hdrop]

section
variable {s : State} {m : Bytes} (hs : SearchingFor m s) (hm : m ≠ [])
include hs hm

/-- While no marker is complete the window holds the last bytes, one less than the marker has, and the rest is skipped. -/
theorem frBytes_of_no_marker {v : Bytes} (hno : ∀ i, i + m.length ≤ v.length → (v.drop i).take m.length ≠ m) :
    frBytes v s = scanned (v.drop (v.length - (m.length - 1))) (v.length - (m.length - 1)) s := by
  have hpos : 1 ≤ m.length := List.length_pos_iff.mpr hm
  induction v using List.reverseRecOn with
  | nil =>
    rw [frBytes_nil, List.drop_nil, List.length_nil, Nat.zero_sub]
    exact hs.eq_scanned
  | append_singleton v b ih =>
    have hlen : (v ++ [b]).length = v.length + 1 := List.length_append
    have hprefix := ih fun i hi => by
      rw [← window_append (x := [b]) hi]
      exact hno i (by omega)
    rw [frBytes_append, hprefix, hlen]
    show frByte (scanned _ _ s) b = _
    rcases Nat.lt_or_ge (v.length + 1) m.length with hpart | hfull
    · have hnone : v.length - (m.length - 1) = 0 := by omega
      have hnone' : v.length + 1 - (m.length - 1) = 0 := by omega
      rw [hnone, hnone', List.drop_zero, List.drop_zero, frByte_scanned_of_part 0 hs (by omega)]
    · obtain ⟨k, hk⟩ : ∃ k, v.length + 1 = k + m.length := Nat.exists_eq_add_of_le' hfull
      have hskip : v.length - (m.length - 1) = k := by omega
      have hskip' : v.length + 1 - (m.length - 1) = k + 1 := by omega
      have hwin : v.drop k ++ [b] = (v ++ [b]).drop k := (List.drop_append_of_le_length (by omega)).symm
      have hwidth : (v.drop k ++ [b]).length = m.length := by
        rw [hwin, List.length_drop]
        omega
      have hne : v.drop k ++ [b] ≠ m := by
        rw [← List.take_of_length_le hwidth.le, hwin]
        exact hno k (by omega)
      rw [hskip, hskip', frByte_scanned_of_full k hs hwidth hne, hwin, List.drop_drop]

/-- Garbage and the first marker after it: the skipped bytes are reported once, and the framer accumulates. -/
theorem frBytes_of_garbage_marker {g : Bytes} (hno : ∀ i, i < g.length → ((g ++ m).drop i).take m.length ≠ m) :
    frBytes (g ++ m) s = settled (skipEvents g.length) .accumulating s := by
  obtain rfl | ⟨front, b, rfl⟩ := List.eq_nil_or_concat' m
  · exact absurd rfl hm
  · have hlen : (front ++ [b]).length = front.length + 1 := List.length_append
    have hglen : (g ++ front).length = g.length + front.length := List.length_append
    have hsearch := frBytes_of_no_marker hs hm (v := g ++ front) fun i hi => by
      rw [← window_append (x := [b]) hi, List.append_assoc]
      exact hno i (by omega)
    have hskip : (g ++ front).length - ((front ++ [b]).length - 1) = g.length := by omega
    rw [hskip, List.drop_left] at hsearch
    rw [← List.append_assoc, frBytes_append, hsearch]
    exact frByte_scanned_of_marker g.length hs rfl

end

/-! ### Packets in a stream (R243) -/

/-- Packets back to back under `FRAMER_REARM = accumulate`. -/
theorem frBytes_of_packets {s : State} (hrearm : s.params.rearm = .accumulate) {ps : List Bytes} {ks : List Packet}
    (h : List.Forall₂ (fittingPacket s) ps ks) (q : List Event) :
    frBytes ps.flatten (settled q .accumulating s) = settled (q ++ ks.map .packet) .accumulating s := by
  have hafter : s.afterUnit = .accumulating := by rw [afterUnit_eq, hrearm]; rfl
  induction h generalizing q with
  | nil => rw [List.flatten_nil, frBytes_nil, List.map_nil, List.append_nil]
  | cons hp _ ih =>
    rw [List.flatten_cons, frBytes_append, frBytes_of_packet hp, hafter, ih, List.map_cons, ← List.append_cons]

theorem syncEn_of_syncMarker {s : State} {m : Bytes} (h : s.syncMarker = some m) : s.syncEn = true := by
  by_contra hno
  rw [State.syncMarker, if_neg hno] at h
  cases h

section
variable {s : State} {m : Bytes} (hsync : s.syncMarker = some m) (hm : m ≠ []) (hrearm : s.params.rearm = .search)
include hsync hrearm

theorem afterUnit_of_search : s.afterUnit = .searching := by
  rw [afterUnit_eq, if_pos hrearm, State.home, if_pos (syncEn_of_syncMarker hsync)]

include hm

/-- Packets each after its own marker under `FRAMER_REARM = search`: from the second on nothing is skipped. -/
theorem frBytes_of_markedStream {ps : List Bytes} {ks : List Packet} (h : List.Forall₂ (fittingPacket s) ps ks)
    (q : List Event) :
    frBytes (markedStream m ps) (settled q .searching s) = settled (q ++ ks.map .packet) .searching s := by
  induction h generalizing q with
  | nil => rw [List.map_nil, List.append_nil]; rfl
  | @cons p k ps ks hp _ ih =>
    have hs : SearchingFor m (settled q .searching s) := ⟨hsync, rfl, rfl, rfl⟩
    have hmarker := frBytes_of_garbage_marker hs hm (g := []) nofun
    have hnone : skipEvents ([] : Bytes).length = [] := rfl
    rw [List.nil_append, hnone, settled_settled, List.append_nil] at hmarker
    rw [markedStream, List.flatMap_cons, frBytes_append, frBytes_append, hmarker, frBytes_of_packet hp,
      afterUnit_of_search hsync hrearm]
    refine (ih _).trans ?_
    rw [List.map_cons, ← List.append_cons]

end

/-! ### No packet with MAXBUF below 6 (R239) -/

section
variable {s : State} (hmax : s.maxbuf.toNat < 6) {p : Packet} (hp : .packet p ∉ s.evq)
include hmax hp

theorem packet_notMem_frByte (b : Byte) : .packet p ∉ (frByte s b).evq := by
  rcases frByte_cases s b with ⟨m, -, -, h⟩ | h <;> rw [h]
  · rcases frSearch_cases m b s with ⟨-, h⟩ | ⟨-, -, h⟩ | ⟨-, -, h⟩ <;> rw [h]
    · show .packet p ∉ if s.fskip = 0 then s.evq else s.evq ++ [.skipped s.fskip]
      split <;> simp [hp]
    · exact hp
    · exact hp
  · rcases frAccumulate_cases b s with ⟨-, h⟩ | ⟨hfit, hc, -⟩ | ⟨-, -, h⟩
    · rw [h]
      simp [hp]
    · obtain ⟨hlen, -⟩ := (unitComplete_iff _).mp hc
      omega
    · rw [h]
      exact hp

theorem packet_notMem_frBytes (inp : Bytes) : .packet p ∉ (frBytes inp s).evq := by
  induction inp generalizing s with
  | nil => exact hp
  | cons b l ih =>
    obtain ⟨-, -, -, hmax', -⟩ := frByte_frame s b
    exact ih (by rwa [hmax']) (packet_notMem_frByte hmax hp b)

end

/-! ### The statements of 44_stream_framer.md on pushes -/

/-- Settles O38: the push leaves all but the framer, and no byte does nothing to it. -/
theorem framerPushCompletes : Obligations.FramerPushCompletes := by
  intro inp s
  refine ⟨_, exec_framerPush inp s, rfl, rfl, ?_⟩
  obtain ⟨hcfg, hs0, hs1, hmax, hhdr, hsh, hcrcv, -, hcon, -, hparams, hpend, hrd⟩ :=
    frBytes_frame inp { s with evq := [] }
  refine ⟨⟨hcfg, hs0, hs1, hmax, hsh, hparams, hpend, hrd⟩, hhdr, hcrcv, hcon, ?_⟩
  rintro rfl
  exact ⟨⟨rfl, rfl, rfl, rfl⟩, rfl⟩

/-- Settles O44: the first MAXBUF bytes are kept as the front of the unit, and the next is one too many; with MAXBUF below 6
no unit is ever complete. -/
theorem overflowDiscardsUnit : Obligations.OverflowDiscardsUnit := by
  refine ⟨fun s t u hmode hbuf hlen hlong ht => ?_, fun s t inp hmax ht p => ?_⟩
  · rw [exec_framerPush, frBytes_of_oversized (s := { s with evq := [] }) hmode hbuf hlen hlong] at ht
    cases ht
    exact ⟨rfl, rfl, rfl⟩
  · cases ht
    exact packet_notMem_frBytes (s := { s with evq := [] }) hmax (List.not_mem_nil) inp

/-- Settles O45: the garbage and the marker, then each packet. -/
theorem garbageThenPacketsAccumulate : Obligations.GarbageThenPacketsAccumulate := by
  intro s t m g ps ks hsync hm hrearm hmode hwin hskip hno hps ht
  have hs : SearchingFor m { s with evq := [] } := ⟨hsync, hmode, hwin, hskip⟩
  have hpackets := frBytes_of_packets (s := { s with evq := [] }) hrearm hps (skipEvents g.length)
  rw [exec_framerPush, frBytes_append, frBytes_of_garbage_marker hs hm hno, hpackets] at ht
  cases ht
  exact ⟨rfl, rfl, rfl⟩

/-- Settles O46: the garbage and the first marker, the first packet, then each marked packet. -/
theorem garbageThenMarkedPacketsSearch : Obligations.GarbageThenMarkedPacketsSearch := by
  intro s t m g p k ps ks hsync hm hrearm hmode hwin hskip hno hps ht
  have hs : SearchingFor m { s with evq := [] } := ⟨hsync, hmode, hwin, hskip⟩
  obtain ⟨hp, hps⟩ := List.forall₂_cons.mp hps
  have hcut : g ++ markedStream m (p :: ps) = (g ++ m) ++ (p ++ markedStream m ps) := by
    simp only [markedStream, List.flatMap_cons, List.append_assoc]
  have hfirst := frBytes_of_packet (q := skipEvents g.length) (s := { s with evq := [] }) hp
  have hrest := frBytes_of_markedStream (s := { s with evq := [] }) hsync hm hrearm hps
    (skipEvents g.length ++ [.packet k])
  rw [afterUnit_of_search (s := { s with evq := [] }) hsync hrearm] at hfirst
  rw [exec_framerPush, hcut, frBytes_append, frBytes_of_garbage_marker hs hm hno, frBytes_append, hfirst, hrest,
    ← List.append_cons] at ht
  cases ht
  exact ⟨rfl, rfl, rfl, rfl⟩

end Sys2Proof.Machine
end
